-- ==== Sys2Proof/Word.lean ====
section
/-! DEFINITION. The plain words of the HX-240: bytes, 32-bit counts, 24-bit addresses, text, sparse tables. -/

namespace Sys2Proof

/-- A byte on a line, a carrier frame or the flash. -/
abbrev Byte := BitVec 8

/-- A 32-bit count: station time, run seconds, slot numbers, journal sequence numbers, accounts (R139, R153). -/
abbrev Word := BitVec 32

/-- A terminal or transponder address (00 scope, "Numbers"). -/
abbrev Addr := BitVec 24

/-- Characters of the office line, as bytes. -/
abbrev Text := List Byte

/-- A set of tiers 0 to 15, one bit a tier: the "mask" of R82; tier 0's bit is never set in a drop's own set,
since tier 0 is implied (R61). -/
abbrev TierSet := BitVec 16

/-- A table of numbered records, sparse: a record that is not listed is the table's blank record. The canonical
form (`Machine.Table.wf`) has the numbers rising and lists no blank record. -/
abbrev Table (α : Type) := List (Nat × α)

/-- The address of all terminals (00 scope, "Numbers"). -/
def allTerminals : Addr := 0xFFFFFF#24

end Sys2Proof
end

