-- ==== Sys2Proof/Syntax.lean ====
section
/-! DEFINITION. The commands of the HX-240: one constructor of `Instr` for each row of spec/opcode_table.json, and
the records their operands are made of (above all the settings image that LOAD_END reads, R177). -/

namespace Sys2Proof

/-- The three request lanes (00 scope, "lane"; R163). -/
inductive Lane where
  | q | p | m
  deriving DecidableEq, Repr

/-! ## Persisted records (R177): what the image holds and the live tables are made of -/

/-- The kind of a program source (R24). -/
inductive SourceKind where
  | slate | satellite | offair | studio | alert
  deriving DecidableEq, Repr

/-- The persisted fields of a source (R24). -/
structure SourceCfg where
  kind : SourceKind
  monitored : Bool
  deriving DecidableEq, Repr

/-- The persisted fields of a line-up slot (R1). -/
structure SlotCfg where
  enabled : Bool
  display : Nat
  name : Text
  tier : Nat
  primary : Nat
  fallback : Option Nat
  autoRestore : Bool
  exempt : Bool
  deriving DecidableEq, Repr

/-- The persisted fields of an event (R9). -/
structure EventCfg where
  id : Nat
  slot : Nat
  source : Nat
  orderOpen : Word
  start : Word
  stop : Word
  price : Nat
  cancelled : Bool
  deriving DecidableEq, Repr

/-- The carousel modes (R22). -/
inductive CarouselMode where
  | cycle
  | burst (n : Nat)
  | hold (e : Nat)
  | stopped
  deriving DecidableEq, Repr

/-- The kind of a plant unit (R103). -/
inductive UnitKind where
  | none | trunkAmp | bridger | lineExt | split
  deriving DecidableEq, Repr

/-- The persisted fields of a plant unit (R103). -/
structure UnitCfg where
  kind : UnitKind
  parent : Option Nat
  address : Option Addr
  inService : Bool
  deriving DecidableEq, Repr

/-- The service states of a drop (R61). -/
inductive Service where
  | vacant | active | suspended | closing
  deriving DecidableEq, Repr

/-- The persisted fields of a drop (R61, R62). -/
structure DropCfg where
  service : Service
  address : Option Addr
  account : Option Word
  tiers : TierSet
  events : List Nat
  feed : Option Nat
  pending : Nat
  deriving DecidableEq, Repr

/-- The host intake modes (R96). -/
inductive IntakeMode where
  | normal | defer | refuse
  deriving DecidableEq, Repr

/-- The fields of a journal record's kind (R140). -/
inductive JBody where
  | connect (drop : Nat) (account : Option Word) (address : Option Addr) (tiers : TierSet)
  | tiers (drop : Nat) (account : Option Word) (old new : TierSet)
  | suspend (drop : Nat) (account : Option Word)
  | resume (drop : Nat) (account : Option Word)
  | disconnect (drop : Nat) (account : Option Word)
  | purchase (drop : Nat) (account : Option Word) (event price : Nat)
  | credit (drop : Nat) (account : Option Word) (outage : Option Nat) (since til : Option Word)
      (minutes : Nat) (deferred : Bool)
  | period (number : Nat)
  deriving DecidableEq, Repr

/-- A journal record: the four common fields, the kind being the body's (R140). -/
structure JRec where
  seq : Word
  time : Word
  uncertain : Bool
  body : JBody
  deriving DecidableEq, Repr

/-- The thirteen parameters, by owner (R174). -/
structure Params where
  refreshStep : Nat
  authTries : Nat
  refreshMisses : Nat
  pollTries : Nat
  silentCycles : Nat
  pollCycle : Nat
  lossSamples : Nat
  returnSamples : Nat
  carouselFloor : Nat
  journalWatermark : Nat
  creditThreshold : Nat
  alertInterval : Nat
  holdoff : Nat
  deriving DecidableEq, Repr

/-- What the body of an image says, part by part (the table of R177). -/
structure SavedImage where
  params : Params
  sources : Table SourceCfg
  slots : Table SlotCfg
  events : Table EventCfg
  text : Text
  enables : Table Bool
  mode : CarouselMode
  units : Table UnitCfg
  drops : Table DropCfg
  protect : Table Bool
  intake : IntakeMode
  journal : List JRec
  nextSeq : Word
  period : Nat
  deriving DecidableEq, Repr

/-- What the flash port delivers at a load (R178): the 14 header bytes, the bytes of the body, and what those bytes
say. The spec gives the body no byte form ("each part in the form its owner loads", R177), so the reading comes with
the bytes; `none` where the bytes are no body at all (log 15). -/
structure FlashRead where
  header : List Byte
  body : List Byte
  content : Option SavedImage
  deriving DecidableEq, Repr

/-! ## The commands -/

/-- One constructor for each row of spec/opcode_table.json. A verb's row is the dispatch (R166) of the line at the
head of the named lane's inbox; the verb's arguments are the words of that line (log 11). -/
inductive Instr where
  | powerOn
  | loadEnd (read : FlashRead)
  | lineReceived (chars : List Byte) (framing : Bool)
  | lineOverflow
  | lineSent
  | deferredReplyAppend
  | noticeAppend
  | unknownVerb (lane : Lane)
  | slotSet (lane : Lane)
  | slotRead (lane : Lane)
  | slotRestore (lane : Lane)
  | eventAdd (lane : Lane)
  | eventCancel (lane : Lane)
  | eventDelete (lane : Lane)
  | eventRead (lane : Lane)
  | eventList (lane : Lane)
  | emergencyOn (lane : Lane)
  | emergencyOff (lane : Lane)
  | carouselMode (lane : Lane)
  | carouselText (lane : Lane)
  | carouselEnable (lane : Lane)
  | carouselRead (lane : Lane)
  | sourceSet (lane : Lane)
  | sourceRead (lane : Lane)
  | sourceList (lane : Lane)
  | matrixStatus (lane : Lane)
  | strayRead (lane : Lane)
  | strayRearm (lane : Lane)
  | carrierStatus (lane : Lane)
  | protectSet (lane : Lane)
  | protectClear (lane : Lane)
  | protectRead (lane : Lane)
  | dropConnect (lane : Lane)
  | dropTiers (lane : Lane)
  | dropSuspend (lane : Lane)
  | dropResume (lane : Lane)
  | dropDisconnect (lane : Lane)
  | dropReassign (lane : Lane)
  | dropSend (lane : Lane)
  | dropRead (lane : Lane)
  | dropList (lane : Lane)
  | authStatus (lane : Lane)
  | refreshStatus (lane : Lane)
  | intakeMode (lane : Lane)
  | intakeStatus (lane : Lane)
  | unitSet (lane : Lane)
  | unitService (lane : Lane)
  | unitRead (lane : Lane)
  | unitList (lane : Lane)
  | pollStatus (lane : Lane)
  | outageDeclare (lane : Lane)
  | outageEnd (lane : Lane)
  | outageRead (lane : Lane)
  | outageList (lane : Lane)
  | journalRead (lane : Lane)
  | journalRelease (lane : Lane)
  | journalStatus (lane : Lane)
  | periodClose (lane : Lane)
  | timeSet (lane : Lane)
  | timeStatus (lane : Lane)
  | attnRead (lane : Lane)
  | attnClear (lane : Lane)
  | attnMask (lane : Lane)
  | attnForce (lane : Lane)
  | identify (lane : Lane)
  | identifyCompat (lane : Lane)
  | status (lane : Lane)
  | paramSet (lane : Lane)
  | paramRead (lane : Lane)
  | run (lane : Lane)
  | stop (lane : Lane)
  | settingsSave (lane : Lane)
  | settingsClear (lane : Lane)
  | settingsStatus (lane : Lane)
  | reset (lane : Lane)
  | saveOperationEnd (more : Bool)
  | saveOperationTimeout
  | abandonEraseEnd
  | clearEraseEnd
  | clearEraseTimeout
  | slotBoundary
  | secondAdvance
  | refreshCounterExpiry
  | emergencyExpiry
  | alertDue
  | pollCycleExpiry
  | pollBegin
  | pollCycleEnd
  | monitorSample
  | referenceReturn
  | startupWindowClose
  | upstreamFrame (bytes : List Byte)
  | sampleDue
  | matrixIssue
  | activityReadAnswer (counts : List Byte)
  | activityReadTimeout
  | switchAnswered
  | switchTimeout
  | lateMatrixAnswer
  | waveVisit
  | waveComplete
  | settlePassStart
  | settleVisit
  | settlePassEnd
  | drainVisit
  | drainCircuitEnd
  | referenceEdge
  deriving DecidableEq, Repr

end Sys2Proof
end

