-- ==== Sys2Proof/WellFormed.lean ====
section
/-! DEFINITION. Which terms of `Instr` are commands of the table. Every operand not named here is free: a malformed
line, a broken frame and an unreadable image are commands the part answers by its rules. -/

namespace Sys2Proof

/-- The character that ends a line (R162). -/
def lineFeed : Byte := 0x0A#8

/-- A read of the flash at a load delivers the 14 header bytes of R177. -/
def FlashRead.wellFormed (r : FlashRead) : Bool := r.header.length == 14

/-- The operand checks: a load delivers a whole header (R177), a received line is the characters before its LF and so
holds none (R162), and an answered read delivers 48 counts (R28). -/
def Instr.wellFormed : Instr → Bool
  | .loadEnd r => r.wellFormed
  | .lineReceived chars _ => !(chars.contains lineFeed)
  | .activityReadAnswer counts => counts.length == 48
  | _ => true

end Sys2Proof
end

