-- ==== Sys2Proof/Config.lean ====
section
/-! DEFINITION. The free values: what the spec leaves open while the part goes on. Neither has a body, so no proof
can rest on a value of one. The first two are applied to `State.draws`, which the step that uses one advances; the last
two are a function of what the part writes, so that equal settings give equal bytes. -/

namespace Sys2Proof

/-- R43: "Readiness changes made by an owner in answer to the closings at the same boundary may or may not have
reached CSC by the grant." Arguments: the draw, and the sender's rank number (`Sender.index`). Log 6. -/
opaque Config.markReached : Nat → Nat → Bool

/-- R136 and R168 leave open whether the warm reset clears the attention set before or after the reset's own
credits raise JOURNAL or JFULL. True: it is cleared last. Argument: the draw. Log 7. -/
opaque Config.attentionClearedLast : Nat → Bool

/-- R177: the body holds the saved state, "each part in the form its owner loads", and no rule gives that form in bytes.
The first byte of the body of a saved state; a body has 1 byte at least. Log 15. -/
opaque Config.imageBodyFirst : SavedImage → Byte

/-- The bytes of the body of a saved state after its first (R177; log 15). -/
opaque Config.imageBodyRest : SavedImage → List Byte

end Sys2Proof
end

