-- ==== Sys2Proof/Machine/State.lean ====
section
/-! DEFINITION. The state of the HX-240, block by block (00_scope.md, "Block Overview"), its value at power-on reset,
and the outcomes of a step other than a next state. -/

namespace Sys2Proof.Machine

/-! ## Office Port (chapter 10) -/

/-- The reason words of chapter 10 ("Reason words"). -/
inductive Reason where
  | check | loading | full | unknown | lane | args | range | state | busy | guarded | journal | duplicate | inUse
  | overlap | pendingCredit | time | aborted | flash
  deriving DecidableEq, Repr

/-- A piece of a reply field; the pieces of a field stand together without a space (R163, R164). -/
inductive Piece where
  | num (n : Nat)
  | word (w : String)
  | hex2 (b : Byte)
  | hex6 (a : Addr)
  | chars (t : Text)
  deriving DecidableEq, Repr

/-- One reply field: pieces written together; fields are separated by a space (R164). -/
abbrev Field := List Piece

/-- A reply: OK with fields, or ERR with a reason word (R164). -/
inductive Reply where
  | ok (fields : List Field)
  | err (reason : Reason)
  deriving DecidableEq, Repr

/-- The sixteen attention kinds (10.3). -/
inductive Kind where
  | source | matrix | fallback | emergency | event | auth | refresh | purchase | plant | outage | journal | jfull
  | stray | timebase | carousel | link
  deriving DecidableEq, Repr

/-- The flags OFP holds for one attention kind; `due` is membership of the announce set (R169). -/
structure Attn where
  pending : Bool
  enabled : Bool
  announced : Bool
  due : Bool
  deriving DecidableEq, Repr

/-- Every kind at power-on: clear, enabled, not announced, announce set empty (R169). -/
def Attn.initial : Attn := ⟨false, true, false, false⟩

/-- A request line waiting in an inbox: its tag, and its characters after the tag up to (and without) the space
before the `*` of its check (R163). -/
structure Line where
  tag : Byte
  text : Text
  deriving DecidableEq, Repr

/-- A line the part sends (R164). -/
inductive OutLine where
  | reply (lane : Lane) (tag : Byte) (body : Reply)
  | notice (kinds : List Kind)
  deriving DecidableEq, Repr

/-- The Office Port's state (R165 to R172). -/
structure Ofp where
  inboxP : List Line
  inboxM : List Line
  inboxQ : List Line
  outQ : List OutLine
  held : Option OutLine
  saveTag : Option Byte
  clearTag : Option Byte
  attn : Table Attn
  compat : Bool
  deriving DecidableEq, Repr

/-! ## Timebase (chapter 9) -/

/-- The clock that paces slots and seconds (R153). -/
inductive ClockSel where
  | reference | internal
  deriving DecidableEq, Repr

/-- The Timebase's state (R153); `startupSamples` counts the samples of the start-up window (R160). `advanceDue`: the
phase has reached 250 and is 0 again, and its second advance has not been taken (R154; log 3). -/
structure Tmb where
  station : Word
  timeSet : Bool
  uncertain : Bool
  run : Word
  phase : Nat
  advanceDue : Bool
  clock : ClockSel
  edge : Bool
  goodRun : Nat
  startup : Bool
  startupSamples : Nat
  deriving DecidableEq, Repr

/-! ## Source Monitor and Matrix Port (chapter 2) -/

/-- The presence states (R24). -/
inductive Presence where
  | present | doubtful | lost | returning
  deriving DecidableEq, Repr

/-- A source record (R24). -/
structure Source where
  cfg : SourceCfg
  presence : Presence
  misses : Nat
  goods : Nat
  deriving DecidableEq, Repr

/-- The blank-image source (R24). -/
def Source.blank (k : Nat) : Source :=
  ⟨⟨if k = 0 then .slate else .studio, false⟩, .present, 0, 0⟩

/-- The Source Monitor's state. -/
structure Smn where
  sources : Table Source
  deriving DecidableEq, Repr

/-- A matrix order: a slot and the source to put on it (R32). -/
structure Order where
  slot : Nat
  source : Nat
  deriving DecidableEq, Repr

/-- The transaction in flight: an order at its first or second issue, or a read (R33, R34). -/
inductive Flight where
  | order (slot source issue : Nat)
  | read
  deriving DecidableEq, Repr

/-- The kind of transaction last issued (R35). -/
inductive TxKind where
  | read | order
  deriving DecidableEq, Repr

/-- The Matrix Port's state (R27, R32, R35). -/
structure Mxp where
  queue : List Order
  flight : Option Flight
  readDue : Bool
  last : TxKind
  deriving DecidableEq, Repr

/-! ## Line-Up Resolver and Carousel (chapter 1) -/

/-- The steps of source resolution (R5). -/
inductive ResStep where
  | a | b | c | d | e
  deriving DecidableEq, Repr

/-- A slot record (R1); a carried source of `none` is UNKNOWN. -/
structure Slot where
  cfg : SlotCfg
  resolved : Nat
  step : ResStep
  latch : Bool
  carried : Option Nat
  fault : Bool
  deriving DecidableEq, Repr

/-- The blank-image fields of slot `k` (R1). -/
def SlotCfg.blank (k : Nat) : SlotCfg := ⟨false, k, [], 0, 0, none, false, false⟩

/-- The blank-image slot (R1). -/
def Slot.blank (k : Nat) : Slot := ⟨SlotCfg.blank k, 0, .e, false, none, false⟩

/-- The states of an event (R9, R10). -/
inductive EventState where
  | scheduled | ordering | showing | ended
  deriving DecidableEq, Repr

/-- An event (R9). `endedBeforeAll`: it had ENDED when the ALL wave now running became RUNNING (R14, R83; log 22). -/
structure Event where
  cfg : EventCfg
  state : EventState
  cleanup : Bool
  endedBeforeAll : Bool
  deriving DecidableEq, Repr

/-- The emergency override (R17); `ready` is the ALERT sender's readiness as LUR owes it (R19). -/
structure Override where
  active : Bool
  source : Nat
  slot : Nat
  code : Nat
  expiry : Word
  nextDue : Word
  ready : Bool
  deriving DecidableEq, Repr

/-- The override at power-on: inactive (R17); the other fields at 0 (log 10). -/
def Override.initial : Override := ⟨false, 0, 0, 0, 0, 0, false⟩

/-- The Line-Up Resolver's state. -/
structure Lur where
  slots : Table Slot
  events : Table (Option Event)
  override : Override
  deriving DecidableEq, Repr

/-- A map entry as built (R20). -/
structure MapEntry where
  display : Nat
  tier : Nat
  name : Text
  enabled : Bool
  onSlate : Bool
  exempt : Bool
  deriving DecidableEq, Repr

/-- An event page entry as built (R20). -/
structure PageEvent where
  id : Nat
  slot : Nat
  start : Word
  stop : Word
  price : Nat
  deriving DecidableEq, Repr

/-- The Carousel's state (R20 to R23). A page that has not been built yet is the empty list. -/
structure Crs where
  mode : CarouselMode
  cursor : Nat
  burst : Nat
  enables : Table Bool
  text : Text
  mapPages : Table (List MapEntry)
  eventPages : Table (List PageEvent)
  deriving DecidableEq, Repr

/-! ## Carrier Scheduler and Upstream Receiver (chapter 3) -/

/-- The five senders (R42). -/
inductive Sender where
  | alert | carousel | authorize | poll | refresh
  deriving DecidableEq, Repr

/-- The kind of a reply window (R45). -/
inductive WindowKind where
  | auth | refresh | poll
  deriving DecidableEq, Repr

/-- An open reply window (R45). -/
structure Window where
  address : Addr
  kind : WindowKind
  owner : Nat
  frameSlot : Word
  closing : Word
  deriving DecidableEq, Repr

/-- The readiness marks (R42); a reply-expecting sender's mark names the address of the frame it would send. -/
structure Marks where
  alert : Bool
  carousel : Bool
  authorize : Option Addr
  poll : Option Addr
  refresh : Option Addr
  deriving DecidableEq, Repr

/-- A carrier frame: kind byte, address and body (R56). -/
structure Frame where
  kind : Byte
  address : Addr
  body : List Byte
  deriving DecidableEq, Repr

/-- The Carrier Scheduler's state (R40, R42, R44, R45, R55). -/
structure Csc where
  windows : List Window
  floor : Nat
  slotNumber : Option Word
  marks : Marks
  granted : Option Sender
  frame : Option Frame
  deriving DecidableEq, Repr

/-- Why a frame is a stray (R47, R48). -/
inductive StrayCause where
  | noWindow | early | kind | form | foreign
  deriving DecidableEq, Repr

/-- A captured stray (R51). -/
structure Stray where
  cause : StrayCause
  address : Addr
  kind : Byte
  station : Option Word
  run : Word
  deriving DecidableEq, Repr

/-- The Upstream Receiver's state: `none` is ARMED (R51). -/
structure Urx where
  stray : Option Stray
  deriving DecidableEq, Repr

/-! ## Drop Table, Authorization Engine, Refresh Sweeper, Purchase Intake (chapters 4 and 5) -/

/-- The link states of a drop (R61). -/
inductive Link where
  | settled | queued | awaiting | parked | unconfirmed
  deriving DecidableEq, Repr

/-- A drop record (R61). -/
structure Drop where
  service : Service
  address : Option Addr
  account : Option Word
  tiers : TierSet
  events : List Nat
  feed : Option Nat
  link : Option Link
  attempts : Nat
  misses : Nat
  stale : Bool
  parkOnClose : Bool
  lastConfirmed : Option Word
  outage : Option Nat
  accrual : Option Word
  lastEnd : Option Word
  pending : Nat
  deriving DecidableEq, Repr

/-- The VACANT drop of a blank image (R62). -/
def Drop.blank : Drop :=
  ⟨.vacant, none, none, 0, [], none, none, 0, 0, false, false, none, none, none, none, 0⟩

/-- The Drop Table's state (R61, R63). -/
structure Dtb where
  drops : Table Drop
  guards : Table Bool
  deriving DecidableEq, Repr

/-- An entry of the authorization queue (R65). -/
structure QEntry where
  drop : Nat
  urgent : Bool
  deriving DecidableEq, Repr

/-- A wave's criterion (R82). -/
inductive Criterion where
  | tiers (mask : TierSet)
  | event (id : Nat)
  | all
  deriving DecidableEq, Repr

/-- A wave list entry (R82). -/
structure Wave where
  criterion : Criterion
  running : Bool
  cursor : Nat
  deriving DecidableEq, Repr

/-- The Authorization Engine's state (R65, R82, R85). `owed`: a settle pass that had paused beside the paused engine has
made its request first, and the engine's visit afresh comes next (R66; log 27). -/
structure Aen where
  queue : List QEntry
  waves : List Wave
  paused : Bool
  owed : Bool
  deriving DecidableEq, Repr

/-- A record of the refresh outstanding list (R87). -/
structure Outstanding where
  drop : Nat
  link : Link
  deriving DecidableEq, Repr

/-- The Refresh Sweeper's state (R87). `counted`: the count of the coming boundary has been taken by
REFRESH_COUNTER_EXPIRY (log 4). -/
structure Rsw where
  counter : Nat
  request : Bool
  cursor : Nat
  outstanding : List Outstanding
  counted : Bool
  deriving DecidableEq, Repr

/-- Purchase Intake's state (R96). -/
structure Pin where
  mode : IntakeMode
  deriving DecidableEq, Repr

/-! ## Plant Poller and Outage Localizer (chapters 6 and 7) -/

/-- The states of a plant unit (R103). -/
inductive UnitState where
  | unknown | answering | missing | silent | excused | outOfService
  deriving DecidableEq, Repr

/-- The last STATUS answer of a unit (R103, R56): supply 0 to 2, level class 0 to 2, input level in dBmV. -/
structure UnitStatus where
  supply : Nat
  levelClass : Nat
  level : Int
  deriving DecidableEq, Repr

/-- A plant unit (R103); `power` and `level` are the two conditions. -/
structure PlantUnit where
  cfg : UnitCfg
  state : UnitState
  missed : Nat
  missingSince : Option Word
  unlogged : Bool
  last : Option UnitStatus
  power : Bool
  level : Bool
  deriving DecidableEq, Repr

/-- The undefined unit of a blank image (R103, R105). -/
def PlantUnit.blank : PlantUnit :=
  ⟨⟨.none, none, none, false⟩, .unknown, 0, none, false, none, false, false⟩

/-- The poll in progress (R110). -/
structure Poll where
  unit : Nat
  address : Addr
  allowed : Nat
  attempt : Nat
  windowOpen : Bool
  firstRun : Word
  heldChange : Bool
  deriving DecidableEq, Repr

/-- The Plant Poller's state (R103, R110). -/
structure Ppl where
  units : Table PlantUnit
  timer : Nat
  running : Bool
  heldExpiry : Bool
  cursor : Nat
  poll : Option Poll
  deriving DecidableEq, Repr

/-- The kind of an outage record (R119). -/
inductive OutageKind where
  | silent | declared
  deriving DecidableEq, Repr

/-- The state of an outage record (R119). -/
inductive OutageState where
  | opened | clearing | closed
  deriving DecidableEq, Repr

/-- Why an outage record left OPEN (R119). -/
inductive CloseReason where
  | cleared | absorbed | split | ended
  deriving DecidableEq, Repr

/-- An outage record (R119); `successors` holds up to eight numbers, `more` is their more flag. -/
structure Outage where
  number : Nat
  kind : OutageKind
  credit : Bool
  root : Nat
  state : OutageState
  reason : Option CloseReason
  successors : List Nat
  more : Bool
  openRun : Word
  openStation : Option Word
  closeStation : Option Word
  affectedNow : Nat
  affectedPeak : Nat
  deriving DecidableEq, Repr

/-- The Outage Localizer's state (R120, R127). Records stand in the order of their opening; `closedOrder` holds the
numbers of the CLOSED ones, earliest first; `taken` pairs each taken number with "was CLEARING when taken". -/
structure Olz where
  log : List Outage
  closedOrder : List Nat
  nextNumber : Nat
  settle : List Nat
  taken : List (Nat × Bool)
  cursor : Nat
  paused : Bool
  deriving DecidableEq, Repr

/-! ## Billing Journal and Settings Store (chapters 8 and 11) -/

/-- The Billing Journal's state (R139); `drainLeft = none` is an IDLE drain run. -/
structure Bjn where
  held : List JRec
  nextSeq : Word
  period : Nat
  drainCursor : Nat
  drainLeft : Option Nat
  deriving DecidableEq, Repr

/-- The run states of the part (R175). -/
inductive RunState where
  | loading | standby | run | stopping | saving
  deriving DecidableEq, Repr

/-- The load result (R177, R178). -/
inductive LoadResult where
  | loaded | blank | invalid
  deriving DecidableEq, Repr

/-- The phases of a save (R179): erase, body, header bytes 2 to 13, format version. -/
inductive SavePhase where
  | erase | body | header | version
  deriving DecidableEq, Repr

/-- What an erase of the header sector is for (R180, R181). -/
inductive EraseCause where
  | abandon | clear
  deriving DecidableEq, Repr

/-- The flash activity (R177). -/
inductive FlashActivity where
  | idle
  | saving (phase : SavePhase)
  | erasing (cause : EraseCause)
  deriving DecidableEq, Repr

/-- What stands on the attached flash as far as the part's own writing and reading say it (R178 to R181; log 17). -/
inductive FlashHeld where
  /-- Nothing is known of it but by reading it. -/
  | asAttached
  /-- A save has begun and has not completed: the header reads as no valid image (R179, R180). -/
  | torn
  /-- The header sector has been erased by SETTINGS.CLEAR (R181). -/
  | erased
  /-- The image of this generation and these contents, as the last complete save wrote it or the last load read it. What
  the next load finds is judged by reading it all the same. -/
  | image (generation : Nat) (content : SavedImage)
  deriving DecidableEq, Repr

/-- The Settings Store's state (R175, R177). `abandoned`: the operation in progress is that of an abandoned save
(R180). `held`: what stands on the flash, which POWER_ON keeps (log 17). -/
structure Sst where
  runState : RunState
  loadResult : LoadResult
  imageValid : Bool
  generation : Nat
  flash : FlashActivity
  abandoned : Bool
  held : FlashHeld
  deriving DecidableEq, Repr

/-- The default parameters (R174). -/
def Params.defaults : Params := ⟨50, 3, 3, 2, 3, 60, 5, 20, 50, 512, 240, 10, 14400⟩

/-! ## The whole -/

/-- The state of the part, with the queue of commands that wait for it (`pending`) and the number of free choices
taken so far (`draws`). -/
structure State where
  ofp : Ofp
  tmb : Tmb
  smn : Smn
  mxp : Mxp
  lur : Lur
  crs : Crs
  csc : Csc
  urx : Urx
  dtb : Dtb
  aen : Aen
  rsw : Rsw
  pin : Pin
  ppl : Ppl
  olz : Olz
  bjn : Bjn
  sst : Sst
  params : Params
  draws : Nat
  pending : List Instr
  deriving DecidableEq, Repr

/-- The part at the end of the power-on reset: LOADING, every block in its power-on state, the tables at their
blank values until the load ends (R175, R178). The CAROUSEL mark is set, since mode CYCLE has eligible entries. The slot
number is absent until the first boundary, which the spec leaves open, and so are the values log 10 lists (the load
result, the image state, what carried and fault hold, and others): the model's choice. -/
def State.reset : State where
  ofp := ⟨[], [], [], [], none, none, none, [], false⟩
  tmb := ⟨0, false, true, 0, 0, false, .internal, false, 0, true, 0⟩
  smn := ⟨[]⟩
  mxp := ⟨[], none, false, .read⟩
  lur := ⟨[], [], Override.initial⟩
  crs := ⟨.cycle, 0, 0, [], [], [], []⟩
  csc := ⟨[], 0, none, ⟨false, true, none, none, none⟩, none, none⟩
  urx := ⟨none⟩
  dtb := ⟨[], []⟩
  aen := ⟨[], [], false, false⟩
  rsw := ⟨0, false, 2047, [], false⟩
  pin := ⟨.normal⟩
  ppl := ⟨[], 0, false, false, 0, none⟩
  olz := ⟨[], [], 1, [], [], 0, false⟩
  bjn := ⟨[], 1, 1, 0, none⟩
  sst := ⟨.loading, .blank, false, 0, .idle, false, .asAttached⟩
  params := Params.defaults
  draws := 0
  pending := []

/-- The part never stops with a fault: what it turns away it answers with a reply, a notice or silence. -/
inductive Fault where
  deriving DecidableEq, Repr

/-- Why a command has no meaning here. -/
inductive Refusal where
  /-- Raised by an arm of `exec` whose command has no meaning yet (none is left). Safe: the step stops. -/
  | notModelled (mnemonic : String)
  /-- Raised by LOAD_END, LINE_RECEIVED and ACTIVITY_READ_ANSWER for operands that no command of the table has
  (`Instr.wellFormed`): a header that is not 14 bytes, a line that holds an LF, counts that are not 48. Safe: the
  step stops. Log 31. -/
  | illFormed
  deriving DecidableEq, Repr

/-- The outcome of a command. -/
abbrev Outcome := Host.Outcome State Fault Refusal

end Sys2Proof.Machine
end

