-- ==== Sys2Proof/Machine/Operands.lean ====
section
/-! DEFINITION. The forms of a request's words (R163, R68): numbers, addresses, tier lists, quoted text, words; and
the verbs with their lanes (R166). Also the decimal and hex forms of what the part sends. -/

namespace Sys2Proof.Machine

/-! ## Characters -/

/-- The characters of a word. -/
def ascii (w : String) : Text := w.toList.map fun c => BitVec.ofNat 8 c.toNat

def chSpace : Byte := 0x20#8
def chQuote : Byte := 0x22#8
def chComma : Byte := 0x2C#8
def chDash : Byte := 0x2D#8
def chStar : Byte := 0x2A#8
def chCr : Byte := 0x0D#8
def chLf : Byte := 0x0A#8

/-- Printable characters are 20h to 7Eh (R56). -/
def isPrintable (b : Byte) : Bool := 0x20 ≤ b.toNat && b.toNat ≤ 0x7E

/-- The value of a decimal digit. -/
def digitVal (b : Byte) : Option Nat :=
  if 0x30 ≤ b.toNat ∧ b.toNat ≤ 0x39 then some (b.toNat - 0x30) else none

/-- The value of a hex digit, capital or small (R163). -/
def hexVal (b : Byte) : Option Nat :=
  if 0x30 ≤ b.toNat ∧ b.toNat ≤ 0x39 then some (b.toNat - 0x30)
  else if 0x41 ≤ b.toNat ∧ b.toNat ≤ 0x46 then some (b.toNat - 0x41 + 10)
  else if 0x61 ≤ b.toNat ∧ b.toNat ≤ 0x66 then some (b.toNat - 0x61 + 10)
  else none

/-! ## Numbers and lists read from a line -/

/-- Reads decimal digits onto `acc`. -/
def decimalOnto (acc : Nat) : Text → Option Nat
  | [] => some acc
  | c :: cs => match digitVal c with
    | some d => decimalOnto (acc * 10 + d) cs
    | none => none

/-- A decimal number (R163). -/
def parseNum (t : Text) : Option Nat := if t.isEmpty then none else decimalOnto 0 t

/-- A decimal number from `lo` to `hi`. -/
def argNum (lo hi : Nat) (t : Text) : Option Nat :=
  (parseNum t).filter fun n => lo ≤ n && n ≤ hi

/-- A flag, 1 or 0. -/
def argFlag (t : Text) : Option Bool := (argNum 0 1 t).map (· == 1)

/-- A 32-bit number, as a station time, an account or a sequence number. -/
def argWord (t : Text) : Option Word := (argNum 0 4294967295 t).map (BitVec.ofNat 32)

/-- An absent value `-`, or what `f` reads. -/
def argOptional {α : Type} (f : Text → Option α) (t : Text) : Option (Option α) :=
  if t = [chDash] then some none else (f t).map some

/-- Reads hex digits onto `acc`. -/
def hexOnto (acc : Nat) : Text → Option Nat
  | [] => some acc
  | c :: cs => match hexVal c with
    | some d => hexOnto (acc * 16 + d) cs
    | none => none

/-- An address: six hex digits, FFFFFF being out of range (R68, R106). -/
def argAddr (t : Text) : Option Addr :=
  if t.length = 6 then ((hexOnto 0 t).map (BitVec.ofNat 24)).filter (· ≠ allTerminals) else none

/-- A quoted text: `"`, printable characters other than `"`, `"` (R163). -/
def argText (t : Text) : Option Text :=
  match t with
  | [] => none
  | c :: rest =>
    let body := rest.dropLast
    if c = chQuote ∧ rest.getLast? = some chQuote ∧ body.all (fun b => isPrintable b && b != chQuote) then
      some body
    else none

/-- Cuts a text at every `sep`. -/
def splitAtByte (sep : Byte) : Text → List Text
  | [] => [[]]
  | c :: cs =>
    let r := splitAtByte sep cs
    if c = sep then [] :: r
    else match r with
      | [] => [[c]]
      | w :: ws => (c :: w) :: ws

/-- Cuts a request into its words at single spaces; spaces inside quotes belong to the text (R163). -/
def splitWords (quoted : Bool) : Text → List Text
  | [] => [[]]
  | c :: cs =>
    let r := splitWords (if c = chQuote then !quoted else quoted) cs
    if c = chSpace ∧ !quoted then [] :: r
    else match r with
      | [] => [[c]]
      | w :: ws => (c :: w) :: ws

/-- Reads every text of a list, or none. -/
def readAll {α : Type} (f : Text → Option α) : List Text → Option (List α)
  | [] => some []
  | t :: ts => match f t, readAll f ts with
    | some a, some r => some (a :: r)
    | _, _ => none

/-- The set with the given tiers; tier 0 adds nothing, being a member of every set (R61, R68). -/
def tierSetOf (l : List Nat) : TierSet :=
  l.foldl (fun t n => t ||| (if n = 0 then 0#16 else 1#16 <<< n)) 0#16

/-- A tier set: a comma list of tiers 0 to 15, or `-` for tier 0 alone (R68). -/
def argTiers (t : Text) : Option TierSet :=
  if t = [chDash] then some 0#16
  else (readAll (argNum 0 15) (splitAtByte chComma t)).map tierSetOf

/-- Whether tier `n` is in a set; tier 0 is in every set (R61). -/
def inTiers (t : TierSet) (n : Nat) : Bool := n == 0 || t.getLsbD n

/-- The mask bit of a tier, tier 0 included (R82). -/
def tierBit (n : Nat) : TierSet := 1#16 <<< n

/-- A word of a closed list. -/
def argWordOf {α : Type} (table : List (String × α)) (t : Text) : Option α :=
  (table.find? fun e => decide (ascii e.1 = t)).map Prod.snd

/-! ## Verbs -/

/-- The verbs of the office line. IDENTIFY and IDENTIFY COMPAT are one verb word (R172). -/
inductive Verb where
  | slotSet | slotRead | slotRestore | eventAdd | eventCancel | eventDelete | eventRead | eventList
  | emergencyOn | emergencyOff | carouselMode | carouselText | carouselEnable | carouselRead
  | sourceSet | sourceRead | sourceList | matrixStatus | strayRead | strayRearm | carrierStatus
  | protectSet | protectClear | protectRead | dropConnect | dropTiers | dropSuspend | dropResume
  | dropDisconnect | dropReassign | dropSend | dropRead | dropList | authStatus | refreshStatus
  | intakeMode | intakeStatus | unitSet | unitService | unitRead | unitList | pollStatus
  | outageDeclare | outageEnd | outageRead | outageList | journalRead | journalRelease | journalStatus
  | periodClose | timeSet | timeStatus | attnRead | attnClear | attnMask | attnForce | identify | status
  | paramSet | paramRead | run | stop | settingsSave | settingsClear | settingsStatus | reset
  deriving DecidableEq, Repr

/-- The verb words as they stand on the line. -/
def verbWords : List (String × Verb) :=
  [("SLOT.SET", .slotSet), ("SLOT.READ", .slotRead), ("SLOT.RESTORE", .slotRestore), ("EVENT.ADD", .eventAdd),
   ("EVENT.CANCEL", .eventCancel), ("EVENT.DELETE", .eventDelete), ("EVENT.READ", .eventRead),
   ("EVENT.LIST", .eventList), ("EMERGENCY.ON", .emergencyOn), ("EMERGENCY.OFF", .emergencyOff),
   ("CAROUSEL.MODE", .carouselMode), ("CAROUSEL.TEXT", .carouselText), ("CAROUSEL.ENABLE", .carouselEnable),
   ("CAROUSEL.READ", .carouselRead), ("SOURCE.SET", .sourceSet), ("SOURCE.READ", .sourceRead),
   ("SOURCE.LIST", .sourceList), ("MATRIX.STATUS", .matrixStatus), ("STRAY.READ", .strayRead),
   ("STRAY.REARM", .strayRearm), ("CARRIER.STATUS", .carrierStatus)] ++
  [("PROTECT.SET", .protectSet), ("PROTECT.CLEAR", .protectClear), ("PROTECT.READ", .protectRead),
   ("DROP.CONNECT", .dropConnect), ("DROP.TIERS", .dropTiers), ("DROP.SUSPEND", .dropSuspend),
   ("DROP.RESUME", .dropResume), ("DROP.DISCONNECT", .dropDisconnect), ("DROP.REASSIGN", .dropReassign),
   ("DROP.SEND", .dropSend), ("DROP.READ", .dropRead), ("DROP.LIST", .dropList), ("AUTH.STATUS", .authStatus),
   ("REFRESH.STATUS", .refreshStatus), ("INTAKE.MODE", .intakeMode), ("INTAKE.STATUS", .intakeStatus)] ++
  [("UNIT.SET", .unitSet), ("UNIT.SERVICE", .unitService), ("UNIT.READ", .unitRead), ("UNIT.LIST", .unitList),
   ("POLL.STATUS", .pollStatus), ("OUTAGE.DECLARE", .outageDeclare), ("OUTAGE.END", .outageEnd),
   ("OUTAGE.READ", .outageRead), ("OUTAGE.LIST", .outageList), ("JOURNAL.READ", .journalRead),
   ("JOURNAL.RELEASE", .journalRelease), ("JOURNAL.STATUS", .journalStatus), ("PERIOD.CLOSE", .periodClose)] ++
  [("TIME.SET", .timeSet), ("TIME.STATUS", .timeStatus), ("ATTN.READ", .attnRead), ("ATTN.CLEAR", .attnClear),
   ("ATTN.MASK", .attnMask), ("ATTN.FORCE", .attnForce), ("IDENTIFY", .identify), ("STATUS", .status),
   ("PARAM.SET", .paramSet), ("PARAM.READ", .paramRead), ("RUN", .run), ("STOP", .stop),
   ("SETTINGS.SAVE", .settingsSave), ("SETTINGS.CLEAR", .settingsClear), ("SETTINGS.STATUS", .settingsStatus),
   ("RESET", .reset)]

/-- The lanes that carry a verb (the table of R166). -/
def Verb.carriedOn : Verb → Lane → Bool
  | .emergencyOn, l => l == .p
  | .emergencyOff, l => l == .p
  | .attnRead, l => l == .p
  | .attnClear, l => l == .p
  | .outageList, l => l == .p
  | .settingsSave, l => l == .m
  | .settingsClear, l => l == .m
  | .protectClear, l => l == .m
  | .paramSet, l => l == .m
  | .reset, l => l == .m
  | .status, _ => true
  | .identify, _ => true
  | _, l => l == .q

/-- A dispatched line as OFP judges it: its verb, or `none` for a verb word the part does not know, and its
arguments (R166). A line whose words do not follow the tag after a space names no known verb. -/
def Line.request (ln : Line) : Option Verb × List Text :=
  match ln.text with
  | [] => (none, [])
  | c :: rest =>
    if c = chSpace then
      match splitWords false rest with
      | [] => (none, [])
      | w :: args => (argWordOf verbWords w, args)
    else (none, [])

/-! ## Numbers the part sends -/

/-- Decimal digits of `n`, at most `fuel` of them. -/
def decimalDigits : Nat → Nat → Text
  | 0, _ => []
  | fuel + 1, n =>
    if n < 10 then [BitVec.ofNat 8 (0x30 + n)]
    else decimalDigits fuel (n / 10) ++ [BitVec.ofNat 8 (0x30 + n % 10)]

/-- A number in decimal (R163). -/
def decimal (n : Nat) : Text := decimalDigits 20 n

/-- A capital hex digit (R164). -/
def hexDigit (n : Nat) : Byte := BitVec.ofNat 8 (if n < 10 then 0x30 + n else 0x41 + (n - 10))

/-- `n` hex digits of a value, most significant first. -/
def hexDigits : Nat → Nat → Text
  | 0, _ => []
  | k + 1, v => hexDigits k (v / 16) ++ [hexDigit (v % 16)]

end Sys2Proof.Machine
end

