-- ==== Sys2Proof/Machine/Tables.lean ====
section
/-! DEFINITION. Reading and writing the sparse tables. A write keeps the canonical form: the numbers rise and no
listed record equals the blank record of its number (log 9). -/

namespace Sys2Proof.Machine

/-- The record listed under `k`, if any. -/
def Table.find {α : Type} : Table α → Nat → Option α
  | [], _ => none
  | e :: t, k => if e.1 = k then some e.2 else Table.find t k

/-- The record of `k`: the listed one, or the blank one. -/
def Table.get {α : Type} (blank : Nat → α) (t : Table α) (k : Nat) : α :=
  (Table.find t k).getD (blank k)

/-- The table without a record listed under `k`. -/
def Table.erase {α : Type} (t : Table α) (k : Nat) : Table α :=
  t.filter fun e => e.1 != k

/-- Lists `v` under `k`, before the first higher number. -/
def Table.insert {α : Type} : Table α → Nat → α → Table α
  | [], k, v => [(k, v)]
  | e :: t, k, v => if k < e.1 then (k, v) :: e :: t else e :: Table.insert t k v

/-- Writes the record of `k`; writing the blank record removes the entry. -/
def Table.set {α : Type} [DecidableEq α] (blank : Nat → α) (t : Table α) (k : Nat) (v : α) : Table α :=
  if v = blank k then Table.erase t k else Table.insert (Table.erase t k) k v

/-- The listed numbers, in the table's order. -/
def Table.keys {α : Type} (t : Table α) : List Nat := t.map Prod.fst

/-- The canonical form. -/
abbrev Table.wf {α : Type} [DecidableEq α] (blank : Nat → α) (t : Table α) : Prop :=
  t.Pairwise (fun a b => a.1 < b.1) ∧ ∀ e ∈ t, e.2 ≠ blank e.1

/-- Writes a list of numbered records in turn, as a load does. -/
def Table.ofList {α : Type} [DecidableEq α] (blank : Nat → α) (l : List (Nat × α)) : Table α :=
  l.foldl (fun t e => Table.set blank t e.1 e.2) []

/-- Puts `n` into a rising list of numbers, once. -/
def insertNumber (n : Nat) : List Nat → List Nat
  | [] => [n]
  | m :: l => if n < m then n :: m :: l else if n = m then m :: l else m :: insertNumber n l

end Sys2Proof.Machine
end

