-- ==== Sys2Proof/Machine/Flags.lean ====
section
/-! DEFINITION. The attention set (R169 to R171): raising a kind, clearing, masking, and the kinds in table order. -/

namespace Sys2Proof.Machine

/-- The sixteen kinds in the order of the kinds table (10.3), with their words. -/
def kindWords : List (String × Kind) :=
  [("SOURCE", .source), ("MATRIX", .matrix), ("FALLBACK", .fallback), ("EMERGENCY", .emergency), ("EVENT", .event),
   ("AUTH", .auth), ("REFRESH", .refresh), ("PURCHASE", .purchase), ("PLANT", .plant), ("OUTAGE", .outage),
   ("JOURNAL", .journal), ("JFULL", .jfull), ("STRAY", .stray), ("TIMEBASE", .timebase), ("CAROUSEL", .carousel),
   ("LINK", .link)]

/-- Every kind, in table order. -/
def Kind.all : List Kind := kindWords.map Prod.snd

/-- A kind's place in the table. -/
def Kind.index : Kind → Nat
  | .source => 0
  | .matrix => 1
  | .fallback => 2
  | .emergency => 3
  | .event => 4
  | .auth => 5
  | .refresh => 6
  | .purchase => 7
  | .plant => 8
  | .outage => 9
  | .journal => 10
  | .jfull => 11
  | .stray => 12
  | .timebase => 13
  | .carousel => 14
  | .link => 15

/-- A kind's word. -/
def Kind.word (k : Kind) : String :=
  ((kindWords.find? fun e => decide (e.2 = k)).map Prod.fst).getD ""

/-- The flags of one kind. -/
def State.attn (s : State) (k : Kind) : Attn := Table.get (fun _ => Attn.initial) s.ofp.attn k.index

/-- Writes the flags of one kind. -/
def State.setAttn (k : Kind) (a : Attn) (s : State) : State :=
  { s with ofp := { s.ofp with attn := Table.set (fun _ => Attn.initial) s.ofp.attn k.index a } }

/-- What a raise does to a kind's flags (the table of R169). -/
def Attn.raised (a : Attn) : Attn :=
  if a.pending then a else { a with pending := true, due := a.due || a.enabled }

/-- A block raises a kind (R169). -/
def raise (k : Kind) (s : State) : State := s.setAttn k (s.attn k).raised

/-- Raises `k` when `b` holds. -/
def raiseIf (b : Bool) (k : Kind) (s : State) : State := if b then raise k s else s

/-- ATTN.CLEAR of one kind: pending and announced clear, out of the announce set (R170). -/
def Attn.cleared (a : Attn) : Attn := { a with pending := false, announced := false, due := false }

/-- ATTN.MASK of one kind (R171): a disabled kind leaves the announce set; a kind that becomes enabled while pending
and not announced joins it. -/
def Attn.masked (on : Bool) (a : Attn) : Attn :=
  if on then { a with enabled := true, due := a.due || (!a.enabled && a.pending && !a.announced) }
  else { a with enabled := false, due := false }

/-- Applies a change of flags to each of some kinds. -/
def State.mapAttn (f : Attn → Attn) (ks : List Kind) (s : State) : State :=
  ks.foldl (fun s k => s.setAttn k (f (s.attn k))) s

/-- The pending kinds, in table order. -/
def State.pendingKinds (s : State) : List Kind := Kind.all.filter fun k => (s.attn k).pending

/-- The kinds due to be named in the next notice (R169). -/
def State.announceSet (s : State) : List Kind := Kind.all.filter fun k => (s.attn k).due

/-- A comma list of kinds; a word that is no kind makes it unreadable (R170). -/
def argKinds (t : Text) : Option (List Kind) :=
  readAll (argWordOf kindWords) (splitAtByte chComma t)

/-- A comma list of kinds, or ALL (R170, R171). -/
def argKindsOrAll (t : Text) : Option (List Kind) :=
  if t = ascii "ALL" then some Kind.all else argKinds t

end Sys2Proof.Machine
end

