-- ==== Sys2Proof/Machine/Ops.lean ====
section
/-! DEFINITION. The operations the blocks share: reading and writing records, the journal, the authorization queue and
wave list, vacating a drop, the readiness marks, and the dispatch of a request line with its reply. -/

namespace Sys2Proof.Machine

/-! ## Records -/

/-- Drop `d` (R61). -/
def State.drop (s : State) (d : Nat) : Drop := Table.get (fun _ => Drop.blank) s.dtb.drops d

/-- DTB writes drop `d`. -/
def State.setDrop (d : Nat) (r : Drop) (s : State) : State :=
  { s with dtb := { s.dtb with drops := Table.set (fun _ => Drop.blank) s.dtb.drops d r } }

/-- Slot `k` of the line-up (R1). -/
def State.slot (s : State) (k : Nat) : Slot := Table.get Slot.blank s.lur.slots k

/-- LUR writes slot `k`. -/
def State.setSlot (k : Nat) (r : Slot) (s : State) : State :=
  { s with lur := { s.lur with slots := Table.set Slot.blank s.lur.slots k r } }

/-- Event table entry `k`, if it holds an event (R9). -/
def State.event (s : State) (k : Nat) : Option Event := Table.get (fun _ => none) s.lur.events k

/-- LUR writes event table entry `k`. -/
def State.setEvent (k : Nat) (e : Option Event) (s : State) : State :=
  { s with lur := { s.lur with events := Table.set (fun _ => none) s.lur.events k e } }

/-- The entries that hold events, in entry order. -/
def State.eventEntries (s : State) : List (Nat × Event) :=
  (Table.keys s.lur.events).filterMap fun k => (s.event k).map fun e => (k, e)

/-- The entry of the event with an id. -/
def State.findEvent (s : State) (id : Nat) : Option (Nat × Event) :=
  s.eventEntries.find? fun e => e.2.cfg.id == id

/-- Source `k` (R24). -/
def State.source (s : State) (k : Nat) : Source := Table.get Source.blank s.smn.sources k

/-- SMN writes source `k`. -/
def State.setSource (k : Nat) (r : Source) (s : State) : State :=
  { s with smn := { s.smn with sources := Table.set Source.blank s.smn.sources k r } }

/-- Plant unit `u` (R103). -/
def State.unit (s : State) (u : Nat) : PlantUnit := Table.get (fun _ => PlantUnit.blank) s.ppl.units u

/-- PPL writes unit `u`. -/
def State.setUnit (u : Nat) (r : PlantUnit) (s : State) : State :=
  { s with ppl := { s.ppl with units := Table.set (fun _ => PlantUnit.blank) s.ppl.units u r } }

/-- The units that are not blank, in unit order: every defined unit is among them. -/
def State.unitKeys (s : State) : List Nat := Table.keys s.ppl.units

/-- The drops that are not blank, in drop order: every drop that is not VACANT, or holds pending credit, is among
them. -/
def State.dropKeys (s : State) : List Nat := Table.keys s.dtb.drops

/-- The slots that are not blank, in slot order: every enabled slot is among them. -/
def State.slotKeys (s : State) : List Nat := Table.keys s.lur.slots

/-- The protection flag of block `b` (R63). -/
def State.guarded (s : State) (b : Nat) : Bool := Table.get (fun _ => false) s.dtb.guards b

/-- Whether drop `d` lies in a protected block: block b holds drops 256b to 256b + 255 (4.2). -/
def State.dropGuarded (s : State) (d : Nat) : Bool := s.guarded (d / 256)

/-- The part is SAVING. -/
def State.saving (s : State) : Bool := s.sst.runState == .saving

/-- The background passes advance in STANDBY, RUN and STOPPING (R83, R127, R149). -/
def State.passesAdvance (s : State) : Bool :=
  s.sst.runState == .standby || s.sst.runState == .run || s.sst.runState == .stopping

/-- Sets the run state (R175). -/
def State.setRunState (r : RunState) (s : State) : State := { s with sst := { s.sst with runState := r } }

/-- Station time as a stamp: absent while time is UNSET (R51, R119). -/
def State.stamp (s : State) : Option Word := if s.tmb.timeSet then some s.tmb.station else none

/-! ## The journal (chapter 8) -/

/-- Journal free: 4096 less the held records (R139). -/
def State.free (s : State) : Nat := 4096 - s.bjn.held.length

/-- The reserve (R142). -/
def reserve : Nat := 256

/-- Appends a record with its stamps (R141, steps 1 to 3). -/
def appendRecord (b : JBody) (s : State) : State :=
  { s with bjn := { s.bjn with
      held := s.bjn.held ++ [⟨s.bjn.nextSeq, s.tmb.station, s.tmb.uncertain, b⟩]
      nextSeq := s.bjn.nextSeq + 1 } }

/-- Writes a record (R141): the append, then the attention of R144. -/
def writeRecord (b : JBody) (s : State) : State :=
  let s1 := appendRecord b s
  let s2 := raiseIf (s1.free ≤ s1.params.journalWatermark) .journal s1
  raiseIf (s1.free == 0) .jfull s2

/-- The most minutes a pending credit holds (R61). -/
def maxPending : Nat := 4294967295

/-- Hands a credit of `minutes` to BJN: a CREDIT record while the journal has a free record, else pending credit with
JFULL attention (R132, R143). -/
def handCredit (d minutes : Nat) (outage : Option Nat) (since til : Word) (s : State) : State :=
  if 1 ≤ s.free then
    writeRecord (.credit d (s.drop d).account outage (some since) (some til) minutes false) s
  else
    let r := s.drop d
    raise .jfull (s.setDrop d { r with pending := min maxPending (r.pending + minutes) })

/-- The minutes an episode of `seconds` earns (R132). -/
def creditMinutes (threshold seconds : Nat) : Nat :=
  if threshold * 60 ≤ seconds then seconds / 60 else 0

/-- Ends the drop's episode, if it has one: the accrual becomes absent and its credit is handed on (R132). -/
def endEpisode (d : Nat) (s : State) : State :=
  let r := s.drop d
  match r.accrual with
  | none => s
  | some since =>
    let seconds := s.tmb.run - since
    let minutes := creditMinutes s.params.creditThreshold seconds.toNat
    let s1 := s.setDrop d { r with accrual := none }
    if minutes = 0 then s1
    else handCredit d minutes r.outage (s.tmb.station - seconds) s.tmb.station s1

/-! ## The outage log, as others read it (7.1) -/

/-- The record with a number. -/
def State.record (s : State) (n : Nat) : Option Outage := s.olz.log.find? fun o => o.number == n

/-- Changes the record with a number. -/
def mapRecord (n : Nat) (f : Outage → Outage) (s : State) : State :=
  { s with olz := { s.olz with log := s.olz.log.map fun o => if o.number = n then f o else o } }

/-- A drop has given up the record's number (R119). -/
def leaveCount (n : Nat) (s : State) : State :=
  mapRecord n (fun o => { o with affectedNow := o.affectedNow - 1 }) s

/-- A drop has taken the record's number; the peak follows (R119). -/
def enterCount (n : Nat) (s : State) : State :=
  mapRecord n (fun o => { o with affectedNow := o.affectedNow + 1, affectedPeak := max o.affectedPeak (o.affectedNow + 1) }) s

/-- Whether the record credits its drops. -/
def State.credits (s : State) (n : Nat) : Bool := (s.record n).any fun o => o.credit

/-- A unit's path: the unit, its parent and so on; at most 24 units (R104). -/
def pathFrom (s : State) : Nat → Nat → List Nat
  | 0, _ => []
  | fuel + 1, u =>
    match (s.unit u).cfg.parent with
    | none => [u]
    | some p => u :: pathFrom s fuel p

/-- The path of unit `u`, of depth at most 24 (R104). -/
def State.path (s : State) (u : Nat) : List Nat := pathFrom s 24 u

/-- Unit `u` lies at or below unit `v` (00 scope, "Plant tree"). -/
def State.atOrBelow (s : State) (u v : Nat) : Bool := (s.path u).contains v

/-- Unit `u` lies below unit `v`. -/
def State.below (s : State) (u v : Nat) : Bool := u != v && s.atOrBelow u v

/-- The OPEN record rooted at unit `u`. -/
def State.openAt (s : State) (u : Nat) : Option Outage :=
  s.olz.log.find? fun o => o.state == .opened && o.root == u

/-- The proper outage of a drop fed from unit `u`: the OPEN record of the first root on the path (R121). -/
def State.properAt (s : State) (u : Nat) : Option Nat :=
  (s.path u).findSome? fun v => (s.openAt v).map fun o => o.number

/-- The proper outage of drop `d`; a VACANT drop has none (R121). -/
def State.proper (s : State) (d : Nat) : Option Nat := (s.drop d).feed.bind s.properAt

/-- Unit `u` lies at or below the root of an OPEN DECLARED record (R109). -/
def State.underDeclared (s : State) (u : Nat) : Bool :=
  s.olz.log.any fun o => o.state == .opened && o.kind == .declared && s.atOrBelow u o.root

/-! ## The authorization queue (4.3) -/

/-- The classes of a queue request (R66). -/
inductive QClass where
  | host | purchase | requeue | retry | wave | settle
  deriving DecidableEq, Repr

/-- The queue length below which a class may append (R66). -/
def QClass.limit : QClass → Nat
  | .host => 64
  | .purchase => 64
  | .requeue => 64
  | .retry => 64
  | .wave => 56
  | .settle => 56

/-- The results of a queue request (R66). -/
inductive QResult where
  | already | stale | parked | queued | noPlace
  deriving DecidableEq, Repr

/-- Writes the authorization queue. -/
def State.setQueue (q : List QEntry) (s : State) : State := { s with aen := { s.aen with queue := q } }

/-- Places an entry: urgent behind the last urgent entry, non-urgent at the tail (R65, R66). -/
def placeEntry (d : Nat) (urgent : Bool) (q : List QEntry) : List QEntry :=
  if urgent then q.filter (fun e => e.urgent) ++ [⟨d, true⟩] ++ q.filter (fun e => !e.urgent)
  else q ++ [⟨d, false⟩]

/-- The queue without the drop's entry. -/
def removeEntry (d : Nat) (q : List QEntry) : List QEntry := q.filter fun e => e.drop != d

/-- An urgent request for a queued drop moves a non-urgent entry behind the last urgent one (R66). -/
def promoteEntry (d : Nat) (q : List QEntry) : List QEntry :=
  if q.any (fun e => e.drop == d && e.urgent) then q else placeEntry d true (removeEntry d q)

/-- A queue request for drop `d` (the table of R66). -/
def queueRequest (cls : QClass) (urgent : Bool) (d : Nat) (s : State) : State × QResult :=
  let r := s.drop d
  match r.link with
  | none => (s, .noPlace)
  | some .queued => (if urgent then s.setQueue (promoteEntry d s.aen.queue) else s, .already)
  | some .awaiting => (s.setDrop d { r with stale := true }, .stale)
  | some .parked => (s, .parked)
  | some _ =>
    if r.outage.isSome then (s.setDrop d { r with link := some .parked }, .parked)
    else if s.aen.queue.length < cls.limit then
      ((s.setQueue (placeEntry d urgent s.aen.queue)).setDrop d
        { r with link := some .queued, attempts := if cls = .retry then r.attempts else 0 }, .queued)
    else (s, .noPlace)

/-- A queue request whose result its maker does not use. -/
def request (cls : QClass) (urgent : Bool) (d : Nat) (s : State) : State := (queueRequest cls urgent d s).1

/-- The request of a PARKED drop that its outage has released (R80, R128, R134): it is appended at the tail when the
class has a place, and the drop stays PARKED otherwise. The second part says whether it found a place. R66's row for
PARKED drops is read as that of a drop held by its outage (log 42). -/
def parkedRequest (cls : QClass) (d : Nat) (s : State) : State × Bool :=
  if s.aen.queue.length < cls.limit then
    ((s.setQueue (placeEntry d false s.aen.queue)).setDrop d { s.drop d with link := some .queued, attempts := 0 }, true)
  else (s, false)

/-- The record a drop has once VACANT: everything cleared but pending credit, and the account while pending credit is
above 0 (R74). -/
def Drop.vacated (r : Drop) : Drop :=
  { Drop.blank with account := if 0 < r.pending then r.account else none, pending := r.pending }

/-- A drop becomes VACANT (R74): its queue entry goes, and the record it carried counts it no more. -/
def vacate (d : Nat) (s : State) : State :=
  let r := s.drop d
  let s1 := if r.link = some .queued then s.setQueue (removeEntry d s.aen.queue) else s
  let s2 := s1.setDrop d r.vacated
  match r.outage with
  | none => s2
  | some n => leaveCount n s2

/-! ## Waves (4.6) -/

/-- Writes the wave list. -/
def State.setWaves (w : List Wave) (s : State) : State := { s with aen := { s.aen with waves := w } }

/-- Whether a WAITING entry has this criterion. -/
def Wave.waitingFor (c : Criterion) (w : Wave) : Bool := !w.running && w.criterion == c

/-- Whether an entry is a WAITING TIERS entry. -/
def Wave.waitingTiers (w : Wave) : Bool :=
  !w.running && match w.criterion with
    | .tiers _ => true
    | .event _ => false
    | .all => false

/-- Joins a mask to the first entry that is a WAITING TIERS entry. -/
def joinTiers (m : TierSet) : List Wave → List Wave
  | [] => []
  | w :: ws =>
    match w.criterion with
    | .tiers m' => if w.running then w :: joinTiers m ws else { w with criterion := .tiers (m' ||| m) } :: ws
    | .event _ => w :: joinTiers m ws
    | .all => w :: joinTiers m ws

/-- The wave list after a wave is appended (the table of R82). -/
def appendedWaves (c : Criterion) (ws : List Wave) : List Wave :=
  let tail := if 8 ≤ ws.length then ws.filter (fun w => w.running) ++ [⟨.all, false, 0⟩] else ws ++ [⟨c, false, 0⟩]
  if ws.any (Wave.waitingFor .all) then ws
  else match c with
    | .tiers m => if ws.any Wave.waitingTiers then joinTiers m ws else tail
    | .event _ => if ws.any (Wave.waitingFor c) then ws else tail
    | .all => tail

/-- A wave is appended (R82). -/
def appendWave (c : Criterion) (s : State) : State := s.setWaves (appendedWaves c s.aen.waves)

/-- Marks the events that have ENDED as an ALL wave becomes RUNNING (R83; log 22). -/
def markEnded (s : State) : State :=
  s.eventEntries.foldl (fun s e => s.setEvent e.1 (some { e.2 with endedBeforeAll := e.2.state == .ended })) s

/-- A WAITING head becomes RUNNING with its cursor at 0 (R83). -/
def startHead (s : State) : State :=
  match s.aen.waves with
  | [] => s
  | w :: ws =>
    if w.running then s
    else
      let s1 := s.setWaves ({ w with running := true, cursor := 0 } :: ws)
      if w.criterion = .all then markEnded s1 else s1

/-! ## The matrix order queue (2.3) -/

/-- The queue after an order for slot `k` is put in (R32). -/
def putOrderIn (k src : Nat) (q : List Order) : List Order :=
  if q.any (fun o => o.slot == k) then q.map fun o => if o.slot = k then { o with source := src } else o
  else q ++ [⟨k, src⟩]

/-- LUR puts in an order for slot `k` with source `src` (R32). -/
def putOrder (k src : Nat) (s : State) : State :=
  { s with mxp := { s.mxp with queue := putOrderIn k src s.mxp.queue } }

/-! ## Readiness (R42) -/

/-- The enabled flag of carousel entry `e` (R20, R23). -/
def State.entryEnabled (s : State) (e : Nat) : Bool := Table.get (fun _ => true) s.crs.enables e

/-- Carousel entry `e` is eligible for sending (R21). -/
def State.eligibleEntry (s : State) (e : Nat) : Bool :=
  s.entryEnabled e && !(e == 15 && s.crs.text.isEmpty) && !(e == 14 && !s.tmb.timeSet)

/-- The next carousel entry of the mode, if it exists (R21). -/
def State.nextEntry (s : State) : Option Nat :=
  let circuit := ((List.range 16).find? fun e => s.crs.cursor ≤ e && s.eligibleEntry e).orElse
    fun _ => (List.range 16).find? s.eligibleEntry
  match s.crs.mode with
  | .cycle => circuit
  | .burst _ => circuit
  | .hold e => if s.eligibleEntry e then some e else none
  | .stopped => none

/-- A drop eligible for a refresh (R90). -/
def State.refreshable (s : State) (d : Nat) : Bool :=
  let r := s.drop d
  (r.service == .active || r.service == .suspended) && (r.link == some .settled || r.link == some .unconfirmed)
    && r.outage.isNone

/-- The candidate: the first eligible drop after the cursor, around the table (R90). -/
def State.candidate (s : State) : Option Nat :=
  (s.dropKeys.find? fun d => s.rsw.cursor < d && s.refreshable d).orElse fun _ => s.dropKeys.find? s.refreshable

/-- The address of the frame a reply-expecting sender would build (R42). -/
def State.offered (s : State) : Sender → Option Addr
  | .alert => none
  | .carousel => none
  | .authorize => s.aen.queue.head?.bind fun e => (s.drop e.drop).address
  | .poll => s.ppl.poll.bind fun p => if p.windowOpen then none else some p.address
  | .refresh => if s.rsw.request then s.candidate.bind fun d => (s.drop d).address else none

/-- The marks the owners' state gives (the "Ready when" column of R42). -/
def State.owedMarks (s : State) : Marks where
  alert := s.lur.override.active && s.lur.override.ready
  carousel := s.nextEntry.isSome
  authorize := s.offered .authorize
  poll := s.offered .poll
  refresh := s.offered .refresh

/-- The owners report their readiness to CSC (R42; log 8). -/
def State.report (s : State) : State := { s with csc := { s.csc with marks := s.owedMarks } }

/-- The end of a command that may have changed a sender's readiness. -/
def done (s : State) : Outcome := .next s.report

/-! ## Lanes and replies (10.2) -/

/-- The inbox of a lane. -/
def Ofp.inbox (o : Ofp) : Lane → List Line
  | .q => o.inboxQ
  | .p => o.inboxP
  | .m => o.inboxM

/-- Writes the inbox of a lane. -/
def Ofp.setInbox (l : Lane) (x : List Line) (o : Ofp) : Ofp :=
  match l with
  | .q => { o with inboxQ := x }
  | .p => { o with inboxP := x }
  | .m => { o with inboxM := x }

/-- The free places of the output queue: 16, less its lines and a place reserved for a SETTINGS.CLEAR (R167). -/
def State.freePlaces (s : State) : Nat :=
  16 - (s.ofp.outQ.length + if s.ofp.clearTag.isSome then 1 else 0)

/-- Appends a line to the output queue. -/
def emit (o : OutLine) (s : State) : State := { s with ofp := { s.ofp with outQ := s.ofp.outQ ++ [o] } }

/-- A lane waits for a place: its inbox holds a line, and it is not held by a SETTINGS.CLEAR (R167). -/
def State.laneWaits (s : State) (l : Lane) : Bool :=
  !(s.ofp.inbox l).isEmpty && !(l == .m && s.ofp.clearTag.isSome)

/-- How many waiters stand before a lane in the order of R167: a due notice, then the lanes P, M, Q. -/
def State.waitersBefore (s : State) (l : Lane) : Nat :=
  (if s.announceSet.isEmpty then 0 else 1)
    + (if l ≠ .p ∧ s.laneWaits .p then 1 else 0)
    + (if l = .q ∧ s.laneWaits .m then 1 else 0)

/-- The lane has been given a place for a reply (R167): no deferred reply waits, and the free places exceed those
that the waiters before it take. In LOADING no verb is answered (R165). Log 11, 12. -/
def State.placeGiven (s : State) (l : Lane) : Bool :=
  s.sst.runState != .loading && s.laneWaits l && s.ofp.held.isNone && decide (s.waitersBefore l < s.freePlaces)

/-- The line a lane would dispatch now (R166). -/
def State.headLine (s : State) (l : Lane) : Option Line :=
  if s.placeGiven l then (s.ofp.inbox l).head? else none

/-- Removes the line at the head of a lane's inbox (R166). -/
def popLine (l : Lane) (s : State) : State :=
  { s with ofp := s.ofp.setInbox l (s.ofp.inbox l).tail }

/-- A lane's line names this verb and is about to be dispatched: its tag and arguments. -/
def State.dispatching (s : State) (l : Lane) (v : Verb) : Option (Byte × List Text) :=
  (s.headLine l).bind fun ln =>
    if ln.request.1 = some v then some (ln.tag, ln.request.2) else none

/-- The dispatch of a verb whose reply leaves at once (R166): the line leaves its inbox; a verb not carried on the
lane is answered LANE; otherwise its owner acts and its reply is appended. When the line at the head is not this
verb's, or has no place, this step does not come about (log 2). -/
def dispatch (v : Verb) (l : Lane) (act : List Text → State → State × Reply) (s : State) : Outcome :=
  match s.dispatching l v with
  | none => .next s
  | some (tag, args) =>
    let s1 := popLine l s
    let (s2, r) := if v.carriedOn l then act args s1 else (s1, .err .lane)
    done (emit (.reply l tag r) s2)

/-- The dispatch of a verb that changes nothing but the Office Port's queues. -/
def answer (v : Verb) (l : Lane) (read : List Text → State → Reply) (s : State) : Outcome :=
  match s.dispatching l v with
  | none => .next s
  | some (tag, args) =>
    let s1 := popLine l s
    .next (emit (.reply l tag (if v.carriedOn l then read args s1 else .err .lane)) s1)

/-- A refused verb changes nothing. -/
def refuse (r : Reason) (s : State) : State × Reply := (s, .err r)

/-- A verb accepted with no fields. -/
def accept (s : State) : State × Reply := (s, .ok [])

/-! ## Reply fields -/

def fNum (n : Nat) : Field := [.num n]
def fWord (w : String) : Field := [.word w]
def fFlag (b : Bool) : Field := [.num (if b then 1 else 0)]
def fTime (t : Word) : Field := [.num t.toNat]
/-- An absent field (R164). -/
def fDash : Field := [.word "-"]

/-- A field, or `-` when absent. -/
def fOpt {α : Type} (f : α → Field) : Option α → Field
  | none => fDash
  | some a => f a

/-- A comma list, or `-` when empty. -/
def fList (fs : List Field) : Field :=
  if fs.isEmpty then fDash else List.intercalate [.word ","] fs

/-- A tier set: a comma list of its tiers above 0, or `-` (R77, R145). -/
def fTiers (t : TierSet) : Field :=
  fList (((List.range 16).filter fun n => n != 0 && t.getLsbD n).map fNum)

/-- A comma list of kinds, or `-` (R170). -/
def fKinds (ks : List Kind) : Field := fList (ks.map fun k => fWord k.word)

/-- At most 16 numbers from `start` on that satisfy `p`, and where a further list starts, `-` when the table has been
searched to `last` (R77, R118, R138). -/
def listFrom (p : Nat → Bool) (keys : List Nat) (start last : Nat) : List Nat × Option Nat :=
  let found := (keys.filter fun k => start ≤ k && p k).take 16
  (found, match found[15]? with
    | none => none
    | some k => if k < last then some (k + 1) else none)

end Sys2Proof.Machine
end

