-- ==== Sys2Proof/Machine/LineUp.lean ====
section
/-! DEFINITION. The channel line-up (1.1 to 1.5): source resolution, the fallback latch, the pages CRS builds from the
tables, the event table and its evaluation, and the verbs SLOT.* and EVENT.*. -/

namespace Sys2Proof.Machine

/-! ## Pages (R20) -/

/-- The map entry of slot `k` (R20). -/
def mapEntry (s : State) (k : Nat) : MapEntry :=
  let r := s.slot k
  ⟨if r.cfg.enabled then r.cfg.display else 0, r.cfg.tier, r.cfg.name, r.cfg.enabled, r.resolved == 0, r.cfg.exempt⟩

/-- The MAP page `p`: slots 8p + 1 to 8p + 8 (R20, R59). -/
def mapPage (s : State) (p : Nat) : List MapEntry := (List.range 8).map fun k => mapEntry s (8 * p + k + 1)

/-- The page entry of event table entry `k`: empty when it is free or its event has ENDED (R20). -/
def pageEvent (s : State) (k : Nat) : PageEvent :=
  match s.event k with
  | none => ⟨0, 0, 0, 0, 0⟩
  | some e => if e.state = .ended then ⟨0, 0, 0, 0, 0⟩ else ⟨e.cfg.id, e.cfg.slot, e.cfg.start, e.cfg.stop, e.cfg.price⟩

/-- The EVENTS page `p`: event table entries 8p to 8p + 7 (R20, R59). -/
def eventPage (s : State) (p : Nat) : List PageEvent := (List.range 8).map fun k => pageEvent s (8 * p + k)

/-- CRS rebuilds MAP page `p` (R20). -/
def rebuildMap (p : Nat) (s : State) : State :=
  { s with crs := { s.crs with mapPages := Table.set (fun _ => []) s.crs.mapPages p (mapPage s p) } }

/-- CRS rebuilds EVENTS page `p` (R20). -/
def rebuildEvents (p : Nat) (s : State) : State :=
  { s with crs := { s.crs with eventPages := Table.set (fun _ => []) s.crs.eventPages p (eventPage s p) } }

/-- The MAP page of slot `k` (R20). -/
def mapPageOf (k : Nat) : Nat := (k - 1) / 8

/-- The EVENTS page of entry `k` (R20). -/
def eventPageOf (k : Nat) : Nat := k / 8

/-- CRS rebuilds every page, as at entry to STANDBY and at warm reset (R20). -/
def rebuildAll (s : State) : State :=
  let s1 := (List.range 10).foldl (fun s p => rebuildMap p s) s
  (List.range 4).foldl (fun s p => rebuildEvents p s) s1

/-! ## Resolution (R5, R6) -/

/-- A source is usable (R5). -/
def State.usable (s : State) (k : Nat) : Bool :=
  let r := s.source k
  !r.cfg.monitored || r.presence == .present || r.presence == .doubtful

/-- `k` if it is usable, else the slate (R5). -/
def orSlate (s : State) (k : Nat) : Nat := if s.usable k then k else 0

/-- The event SHOWING on a slot, if any (R5). EVENT.ADD's check keeps it unique (R12), but a loaded table may bring two, for
which no rule says which holds step B: the one in the lowest entry is the model's choice (log 51). -/
def State.showingOn (s : State) (k : Nat) : Option Event :=
  (s.eventEntries.find? fun e => e.2.cfg.slot == k && e.2.state == .showing).map Prod.snd

/-- The resolved source and the step of slot `k` (the table of R5). -/
def resolution (s : State) (k : Nat) : Nat × ResStep :=
  let r := s.slot k
  if !r.cfg.enabled then (0, .e)
  else if s.lur.override.active && !r.cfg.exempt then (orSlate s s.lur.override.source, .a)
  else match s.showingOn k with
    | some e => (orSlate s e.cfg.source, .b)
    | none =>
      if !r.latch && s.usable r.cfg.primary then (r.cfg.primary, .c)
      else match r.cfg.fallback with
        | some f => if s.usable f then (f, .d) else (0, .e)
        | none => (0, .e)

/-- Stores the resolution of slot `k` (R5). -/
def storeResolution (k : Nat) (s : State) : State :=
  s.setSlot k { s.slot k with resolved := (resolution s k).1, step := (resolution s k).2 }

/-- Resolves slot `k` again (R6): an enabled slot whose source changes puts in an order, and a change to or from the
slate rebuilds the slot's map page (R20). -/
def resolveSlot (k : Nat) (s : State) : State :=
  let old := (s.slot k).resolved
  let new := (resolution s k).1
  let s1 := storeResolution k s
  let s2 := if (s.slot k).cfg.enabled && new != old then putOrder k new s1 else s1
  if (new == 0) != (old == 0) then rebuildMap (mapPageOf k) s2 else s2

/-- Resolves some slots again, in turn. The spec gives no order for the slots of one change, which is the order their
matrix orders are put in: every caller takes them ascending, the model's choice (log 44). -/
def resolveSlots (ks : List Nat) (s : State) : State := ks.foldl (fun s k => resolveSlot k s) s

/-- Resolves every slot that is not emergency-exempt again (R17, R18), in ascending slot order (log 44). -/
def resolveNonExempt (s : State) : State := resolveSlots (s.slotKeys.filter fun k => !(s.slot k).cfg.exempt) s

/-- Whether slot `k` uses source `x`: as primary, fallback, SHOWING event source or applicable alert source (R6). -/
def usesSource (s : State) (x k : Nat) : Bool :=
  let r := s.slot k
  r.cfg.primary == x || r.cfg.fallback == some x || (s.showingOn k).any (fun e => e.cfg.source == x)
    || (s.lur.override.active && !r.cfg.exempt && s.lur.override.source == x)

/-- Sets the fallback latch of slot `k`. -/
def setLatch (b : Bool) (k : Nat) (s : State) : State := s.setSlot k { s.slot k with latch := b }

/-- LUR resolves every slot at entry to STANDBY or at warm reset, and MXP queues one order for each enabled slot in
ascending slot order (R6, R37, R38). -/
def resolveAllAfresh (s : State) : State :=
  let s1 := s.slotKeys.foldl (fun s k => storeResolution k s) s
  { s1 with mxp := { s1.mxp with
      queue := (s1.slotKeys.filter fun k => (s1.slot k).cfg.enabled).map fun k => ⟨k, (s1.slot k).resolved⟩ } }

/-! ## Events (R10, R11) -/

/-- The state of an event at a station time (the table of R10); SCHEDULED while time is UNSET. -/
def eventStateAt (timeSet : Bool) (now : Word) (c : EventCfg) : EventState :=
  if !timeSet then .scheduled
  else if now < c.orderOpen then .scheduled
  else if now < c.start then .ordering
  else if now < c.stop then .showing
  else .ended

/-- The effects of a change of the state of entry `k`'s event from `old` to `new` (R11). -/
def eventChanged (k : Nat) (e : Event) (new : EventState) (s : State) : State :=
  let s1 := raise .event s
  let s2 := if e.state = .showing ∨ new = .showing then resolveSlot e.cfg.slot s1 else s1
  let s3 := rebuildEvents (eventPageOf k) s2
  if new = .ended then appendWave (.event e.cfg.id) s3 else s3

/-- The events whose state an evaluation changes, in entry order, with their new states (R10). -/
def eventChanges (s : State) : List (Nat × Event × EventState) :=
  s.eventEntries.filterMap fun e =>
    let new := eventStateAt s.tmb.timeSet s.tmb.station e.2.cfg
    if e.2.state = .ended ∨ new = e.2.state then none else some (e.1, e.2, new)

/-- LUR evaluates every event's state (R10): first all the states, then each change's effects in entry order
(log 20). -/
def evaluateEvents (s : State) : State :=
  let cs := eventChanges s
  let s1 := cs.foldl (fun s c => s.setEvent c.1 (some { c.2.1 with state := c.2.2 })) s
  cs.foldl (fun s c => eventChanged c.1 c.2.1 c.2.2 s) s1

/-- The evaluation at an advance or at the end of SAVING: while time is SET and the part is not SAVING (R10). -/
def evaluateIfSet (s : State) : State := if s.tmb.timeSet && !s.saving then evaluateEvents s else s

/-! ## Slot verbs -/

/-- A slot number (R4). -/
def argSlot (t : Text) : Option Nat := argNum 1 80 t

/-- A source number (R2). -/
def argSource (t : Text) : Option Nat := argNum 0 47 t

/-- A slot name: at most 8 printable characters (R2). -/
def argName (t : Text) : Option Text := (argText t).filter fun n => decide (n.length ≤ 8)

/-- SLOT.SET's arguments in their order (R2). -/
def argsSlotSet : List Text → Option (Nat × SlotCfg)
  | [a, b, c, d, e, f, g, h, i] => do
    let k ← argSlot a
    let enabled ← argFlag b
    let display ← argNum 1 999 c
    let name ← argName d
    let tier ← argNum 0 15 e
    let primary ← argSource f
    let fallback ← argOptional argSource g
    let autoRestore ← argFlag h
    let exempt ← argFlag i
    return (k, ⟨enabled, display, name, tier, primary, fallback, autoRestore, exempt⟩)
  | _ => none

/-- Another enabled slot has the display number (R2). -/
def displayTaken (s : State) (k display : Nat) : Bool :=
  s.slotKeys.any fun j => j != k && (s.slot j).cfg.enabled && (s.slot j).cfg.display == display

/-- An event that is not ENDED names the slot (R2). -/
def slotInUse (s : State) (k : Nat) : Bool :=
  s.eventEntries.any fun e => e.2.cfg.slot == k && e.2.state != .ended

/-- The fields a map page shows of a slot's configuration (R20). -/
def shownFields (c : SlotCfg) : Nat × Nat × Text × Bool × Bool := (c.display, c.tier, c.name, c.enabled, c.exempt)

/-- An accepted SLOT.SET (R3): the fields, the latch when the primary changed, the resolution (with an order whenever
the slot is being enabled, R6), the TIERS wave, the page. -/
def slotSetEffect (k : Nat) (c : SlotCfg) (s : State) : State :=
  let old := s.slot k
  if old.cfg = c then s
  else
    let s1 := s.setSlot k { old with cfg := c, latch := if c.primary = old.cfg.primary then old.latch else false }
    let s2 := resolveSlot k s1
    let s3 := if c.enabled && !old.cfg.enabled then putOrder k (s2.slot k).resolved s2 else s2
    let s4 :=
      if c.tier ≠ old.cfg.tier ∨ c.enabled ≠ old.cfg.enabled then
        appendWave (.tiers (tierBit old.cfg.tier ||| tierBit c.tier)) s3
      else s3
    if shownFields c ≠ shownFields old.cfg then rebuildMap (mapPageOf k) s4 else s4

/-- SLOT.SET's checks and effects (R2, R3). -/
def slotSetVerb (args : List Text) (s : State) : State × Reply :=
  if s.saving then refuse .busy s
  else match argsSlotSet args with
    | none => refuse .args s
    | some (k, c) =>
      if c.enabled && displayTaken s k c.display then refuse .duplicate s
      else if (s.slot k).cfg.enabled && !c.enabled && slotInUse s k then refuse .inUse s
      else accept (slotSetEffect k c s)

def execSlotSet (l : Lane) (s : State) : Outcome := dispatch .slotSet l slotSetVerb s

/-- The letter of a resolution step (R5). -/
def ResStep.word : ResStep → String
  | .a => "A"
  | .b => "B"
  | .c => "C"
  | .d => "D"
  | .e => "E"

/-- A quoted text as a reply field (R163). -/
def fText (t : Text) : Field := [.word "\"", .chars t, .word "\""]

/-- SLOT.READ's reply: the fields of R1 in its order (R4). That its five flags stand as 1 or 0 is the model's choice
(log 14). -/
def slotFields (r : Slot) : List Field :=
  [fFlag r.cfg.enabled, fNum r.cfg.display, fText r.cfg.name, fNum r.cfg.tier, fNum r.cfg.primary,
   fOpt fNum r.cfg.fallback, fFlag r.cfg.autoRestore, fFlag r.cfg.exempt, fNum r.resolved, fWord r.step.word,
   fFlag r.latch, (match r.carried with | none => fWord "U" | some x => fNum x), fFlag r.fault]

/-- SLOT.READ (R4). -/
def slotReadVerb (args : List Text) (s : State) : Reply :=
  match args with
  | [a] => match argSlot a with
    | some k => .ok (slotFields (s.slot k))
    | none => .err .args
  | _ => .err .args

def execSlotRead (l : Lane) (s : State) : Outcome := answer .slotRead l slotReadVerb s

/-- SLOT.RESTORE (R8). -/
def slotRestoreVerb (args : List Text) (s : State) : State × Reply :=
  match args with
  | [a] => match argSlot a with
    | none => refuse .args s
    | some k =>
      if !s.usable (s.slot k).cfg.primary then refuse .state s
      else if (s.slot k).latch then accept (resolveSlot k (setLatch false k s))
      else accept s
  | _ => refuse .args s

def execSlotRestore (l : Lane) (s : State) : Outcome := dispatch .slotRestore l slotRestoreVerb s

/-! ## Event verbs -/

/-- An event id (R9). -/
def argId (t : Text) : Option Nat := argNum 1 255 t

/-- EVENT.ADD's arguments in their order, with order-open ≤ start < end (R12). -/
def argsEventAdd : List Text → Option EventCfg
  | [a, b, c, d, e, f, g] => do
    let id ← argId a
    let slot ← argSlot b
    let source ← argSource c
    let orderOpen ← argWord d
    let start ← argWord e
    let stop ← argWord f
    let price ← argNum 0 65535 g
    if orderOpen ≤ start ∧ start < stop then return ⟨id, slot, source, orderOpen, start, stop, price, false⟩ else none
  | _ => none

/-- An event that is not ENDED names the same slot with an overlapping span (R12). -/
def spanOverlaps (s : State) (c : EventCfg) : Bool :=
  s.eventEntries.any fun e =>
    e.2.cfg.slot == c.slot && e.2.state != .ended && decide (e.2.cfg.start < c.stop) && decide (c.start < e.2.cfg.stop)

/-- The lowest-numbered free entry of the event table (R12). -/
def State.freeEntry (s : State) : Option Nat := (List.range 32).find? fun k => (s.event k).isNone

/-- An accepted EVENT.ADD in entry `k` (R12). -/
def eventAddEffect (k : Nat) (c : EventCfg) (s : State) : State :=
  let st := eventStateAt s.tmb.timeSet s.tmb.station c
  let s1 := s.setEvent k (some ⟨c, st, false, false⟩)
  let s2 := if st = .showing then resolveSlot c.slot s1 else s1
  rebuildEvents (eventPageOf k) s2

/-- EVENT.ADD's checks and effects (R12). -/
def eventAddVerb (args : List Text) (s : State) : State × Reply :=
  if s.saving then refuse .busy s
  else match argsEventAdd args with
    | none => refuse .args s
    | some c =>
      if s.tmb.timeSet && decide (c.stop ≤ s.tmb.station) then refuse .range s
      else if !(s.slot c.slot).cfg.enabled then refuse .state s
      else if spanOverlaps s c then refuse .overlap s
      else if (s.findEvent c.id).isSome then refuse .duplicate s
      else match s.freeEntry with
        | none => refuse .full s
        | some k => (eventAddEffect k c s, .ok [fNum k])

def execEventAdd (l : Lane) (s : State) : Outcome := dispatch .eventAdd l eventAddVerb s

/-- An accepted EVENT.CANCEL of entry `k` (R13). -/
def eventCancelEffect (k : Nat) (e : Event) (s : State) : State :=
  eventChanged k e .ended (s.setEvent k (some { e with cfg := { e.cfg with cancelled := true }, state := .ended }))

/-- EVENT.CANCEL (R13). -/
def eventCancelVerb (args : List Text) (s : State) : State × Reply :=
  if s.saving then refuse .busy s
  else match args with
    | [a] => match (argId a).bind s.findEvent with
      | none => refuse .args s
      | some (k, e) => if e.state = .ended then refuse .state s else accept (eventCancelEffect k e s)
    | _ => refuse .args s

def execEventCancel (l : Lane) (s : State) : Outcome := dispatch .eventCancel l eventCancelVerb s

/-- EVENT.DELETE (R14). -/
def eventDeleteVerb (args : List Text) (s : State) : State × Reply :=
  if s.saving then refuse .busy s
  else match args with
    | [a] => match (argId a).bind s.findEvent with
      | none => refuse .args s
      | some (k, e) =>
        if e.state = .ended ∧ e.cleanup then accept (rebuildEvents (eventPageOf k) (s.setEvent k none))
        else refuse .inUse s
    | _ => refuse .args s

def execEventDelete (l : Lane) (s : State) : Outcome := dispatch .eventDelete l eventDeleteVerb s

/-- The word of an event's state (R9). -/
def EventState.word : EventState → String
  | .scheduled => "SCHEDULED"
  | .ordering => "ORDERING"
  | .showing => "SHOWING"
  | .ended => "ENDED"

/-- The letter of an event's state (R15). -/
def EventState.letter : EventState → String
  | .scheduled => "S"
  | .ordering => "O"
  | .showing => "W"
  | .ended => "E"

/-- EVENT.READ's reply: the entry number and the fields of R9 in its order (R15). That the state is its whole word, where
EVENT.LIST has its letter, and that both flags stand as 1 or 0, is the model's choice (log 14). -/
def eventFields (k : Nat) (e : Event) : List Field :=
  [fNum k, fNum e.cfg.id, fNum e.cfg.slot, fNum e.cfg.source, fTime e.cfg.orderOpen, fTime e.cfg.start,
   fTime e.cfg.stop, fNum e.cfg.price, fFlag e.cfg.cancelled, fWord e.state.word, fFlag e.cleanup]

/-- EVENT.READ (R15). -/
def eventReadVerb (args : List Text) (s : State) : Reply :=
  match args with
  | [a] => match (argId a).bind s.findEvent with
    | some (k, e) => .ok (eventFields k e)
    | none => .err .args
  | _ => .err .args

def execEventRead (l : Lane) (s : State) : Outcome := answer .eventRead l eventReadVerb s

/-- EVENT.LIST (R15). With no event in the table it is OK alone: the model's choice (log 14). -/
def eventListVerb (args : List Text) (s : State) : Reply :=
  match args with
  | [] => .ok (s.eventEntries.map fun e =>
      [.num e.2.cfg.id, .word e.2.state.letter] ++ if e.2.state = .ended ∧ e.2.cleanup then [.word "+"] else [])
  | _ => .err .args

def execEventList (l : Lane) (s : State) : Outcome := answer .eventList l eventListVerb s

end Sys2Proof.Machine
end

