-- ==== Sys2Proof/Machine/Wire.lean ====
section
/-! DEFINITION. Bytes on the carrier and the flash: the two checks (R56, R177), the frame layouts of chapter 3 (R56 to
R60), and the reading of an upstream frame (R47). -/

namespace Sys2Proof.Machine

/-! ## Checks -/

/-- One bit of the carrier check: x^16 + x^12 + x^5 + 1, most significant bit first (R56). -/
def crc16Shift (c : BitVec 16) : BitVec 16 := if c.msb then (c <<< 1) ^^^ 0x1021#16 else c <<< 1

/-- `n` shifts. -/
def shiftTimes {w : Nat} (f : BitVec w → BitVec w) : Nat → BitVec w → BitVec w
  | 0, c => c
  | n + 1, c => shiftTimes f n (f c)

/-- One byte of the carrier check. -/
def crc16Byte (c : BitVec 16) (b : Byte) : BitVec 16 :=
  shiftTimes crc16Shift 8 (c ^^^ (b.setWidth 16 <<< 8))

/-- The carrier check: from FFFFh, not inverted (R56). -/
def crc16 (bytes : List Byte) : BitVec 16 := bytes.foldl crc16Byte 0xFFFF#16

/-- One bit of the image check: polynomial 04C11DB7h, least significant bit first (R177; log 40). -/
def crc32Shift (c : BitVec 32) : BitVec 32 := if c.getLsbD 0 then (c >>> 1) ^^^ 0xEDB88320#32 else c >>> 1

/-- One byte of the image check. -/
def crc32Byte (c : BitVec 32) (b : Byte) : BitVec 32 := shiftTimes crc32Shift 8 (c ^^^ b.setWidth 32)

/-- The image check: from FFFFFFFFh, inverted at the end (R177). -/
def crc32 (bytes : List Byte) : BitVec 32 := ~~~(bytes.foldl crc32Byte 0xFFFFFFFF#32)

/-! ## Numbers in bytes, most significant first (R56, R177) -/

/-- The `n` low bytes of a number, most significant first. -/
def bytesOf : Nat → Nat → List Byte
  | 0, _ => []
  | k + 1, v => bytesOf k (v / 256) ++ [BitVec.ofNat 8 (v % 256)]

/-- The number some bytes say, most significant first. -/
def numberOf (bytes : List Byte) : Nat := bytes.foldl (fun n b => n * 256 + b.toNat) 0

/-! ## Frames (R56) -/

/-- A frame's bytes before the check. -/
def Frame.head (f : Frame) : List Byte :=
  [f.kind] ++ bytesOf 3 f.address.toNat ++ [BitVec.ofNat 8 f.body.length] ++ f.body

/-- A frame's bytes on the carrier: header, body, check with its high byte first (R56). -/
def Frame.bytes (f : Frame) : List Byte := f.head ++ bytesOf 2 (crc16 f.head).toNat

/-- FILLER: an empty body to all terminals (R56, R60). -/
def fillerFrame : Frame := ⟨0x00#8, allTerminals, []⟩

/-- The bytes of a slot set: slot s is bit (s - 1) mod 8 of byte (s - 1) div 8 (R57). -/
def slotSetBytes (granted : Nat → Bool) : List Byte :=
  (List.range 10).map fun b =>
    (List.range 8).foldl (fun (acc : Byte) i => if granted (8 * b + i + 1) then acc ||| (1#8 <<< i) else acc) 0#8

/-- The authorization body (R57). -/
def authorizationBody (granted : Nat → Bool) (holdoff : Nat) (ids : List Nat) : List Byte :=
  slotSetBytes granted ++ bytesOf 2 holdoff ++ [BitVec.ofNat 8 ids.length] ++ ids.map (BitVec.ofNat 8)

/-- A slot granted to an ACTIVE drop: enabled, and of a tier of the drop or of an event in its list (R58). -/
def grantsSlot (s : State) (r : Drop) (k : Nat) : Bool :=
  let c := (s.slot k).cfg
  c.enabled && (inTiers r.tiers c.tier || r.events.any fun id => (s.findEvent id).any fun e => e.2.cfg.slot == k)

/-- The authorization content of a drop as it stands (the table of R58). -/
def authorizationOf (s : State) (r : Drop) : List Byte :=
  match r.service with
  | .active => authorizationBody (grantsSlot s r) s.params.holdoff r.events
  | .suspended => authorizationBody (fun _ => false) s.params.holdoff []
  | .closing => authorizationBody (fun _ => false) 0 []
  | .vacant => authorizationBody (fun _ => false) 0 []

/-- A map entry's 12 bytes (R59). -/
def MapEntry.bytes (e : MapEntry) : List Byte :=
  bytesOf 2 e.display ++ [BitVec.ofNat 8 e.tier,
    BitVec.ofNat 8 ((if e.enabled then 1 else 0) + (if e.onSlate then 2 else 0) + (if e.exempt then 4 else 0))]
    ++ e.name ++ List.replicate (8 - e.name.length) 0x20#8

/-- An event page entry's 12 bytes (R59). -/
def PageEvent.bytes (e : PageEvent) : List Byte :=
  [BitVec.ofNat 8 e.id, BitVec.ofNat 8 e.slot] ++ bytesOf 4 e.start.toNat ++ bytesOf 4 e.stop.toNat ++ bytesOf 2 e.price

/-- The frame of carousel entry `e` (R20, R59, R60): the built pages, or what the Timebase and the text hold now. -/
def carouselFrame (s : State) (e : Nat) : Frame :=
  if e < 10 then
    ⟨0x10#8, allTerminals, BitVec.ofNat 8 e :: ((Table.get (fun _ => []) s.crs.mapPages e).map MapEntry.bytes).flatten⟩
  else if e < 14 then
    ⟨0x11#8, allTerminals,
      BitVec.ofNat 8 (e - 10) :: ((Table.get (fun _ => []) s.crs.eventPages (e - 10)).map PageEvent.bytes).flatten⟩
  else if e = 14 then
    ⟨0x12#8, allTerminals, bytesOf 4 s.tmb.station.toNat ++ [if s.tmb.uncertain then 1#8 else 0#8]⟩
  else ⟨0x13#8, allTerminals, BitVec.ofNat 8 s.crs.text.length :: s.crs.text⟩

/-- The ALERT frame (R19, R60): the alert slot's display number now, the remaining seconds, the code. -/
def alertFrame (s : State) : Frame :=
  let o := s.lur.override
  ⟨0x20#8, allTerminals,
    bytesOf 2 (s.slot o.slot).cfg.display ++ bytesOf 2 (o.expiry - s.tmb.run).toNat ++ [BitVec.ofNat 8 o.code]⟩

/-! ## Upstream frames (R47) -/

/-- An intact upstream frame: its length fits its body length byte and its check is right (R47). -/
def readFrame (bytes : List Byte) : Option Frame :=
  match bytes with
  | kind :: a :: b :: c :: len :: rest =>
    if bytes.length < 7 ∨ 120 < len.toNat ∨ bytes.length ≠ 5 + len.toNat + 2 then none
    else
      let f : Frame := ⟨kind, BitVec.ofNat 24 (numberOf [a, b, c]), rest.take len.toNat⟩
      if f.bytes = bytes then some f else none
  | _ => none

/-- What a well-formed upstream frame says (R47). -/
inductive Upstream where
  | ack (purchase : Nat)
  | status (st : UnitStatus)
  deriving DecidableEq, Repr

/-- The form of an intact frame (the table of R47): its meaning, or the cause that makes it a stray. -/
def frameForm (f : Frame) : Except StrayCause Upstream :=
  if f.kind = 0x81#8 then
    match f.body with
    | [p] => .ok (.ack p.toNat)
    | _ => .error .form
  else if f.kind = 0x82#8 then
    match f.body with
    | [supply, cls, level] =>
      if supply.toNat ≤ 2 ∧ cls.toNat ≤ 2 ∧ -30 ≤ level.toInt ∧ level.toInt ≤ 50 then
        .ok (.status ⟨supply.toNat, cls.toNat, level.toInt⟩)
      else .error .form
    | _ => .error .form
  else .error .foreign

end Sys2Proof.Machine
end

