-- ==== Sys2Proof/Machine/Carousel.lean ====
section
/-! DEFINITION. The carousel (1.7): the sending of an entry, and the verbs CAROUSEL.MODE, TEXT, ENABLE and READ. -/

namespace Sys2Proof.Machine

/-- Writes the mode, with the cursor at 0 and the burst count of the mode (R22). -/
def State.setCarousel (m : CarouselMode) (s : State) : State :=
  { s with crs := { s.crs with mode := m, cursor := 0, burst := match m with
    | .burst n => n
    | .cycle => 0
    | .hold _ => 0
    | .stopped => 0 } }

/-- The mode words of CAROUSEL.MODE (R22). -/
def argsCarouselMode : List Text → Option CarouselMode
  | [a] => if a = ascii "CYCLE" then some .cycle else if a = ascii "STOP" then some .stopped else none
  | [a, b] =>
    if a = ascii "BURST" then (argNum 1 255 b).map .burst
    else if a = ascii "HOLD" then (argNum 0 15 b).map .hold
    else none
  | _ => none

/-- CAROUSEL.MODE (R22). -/
def carouselModeVerb (args : List Text) (s : State) : State × Reply :=
  if s.saving then refuse .busy s
  else match argsCarouselMode args with
    | none => refuse .args s
    | some m => accept (s.setCarousel m)

def execCarouselMode (l : Lane) (s : State) : Outcome := dispatch .carouselMode l carouselModeVerb s

/-- CAROUSEL.TEXT (R23). -/
def carouselTextVerb (args : List Text) (s : State) : State × Reply :=
  if s.saving then refuse .busy s
  else match args with
    | [a] => match (argText a).filter fun t => decide (t.length ≤ 96) with
      | none => refuse .args s
      | some t => accept { s with crs := { s.crs with text := t } }
    | _ => refuse .args s

def execCarouselText (l : Lane) (s : State) : Outcome := dispatch .carouselText l carouselTextVerb s

/-- CAROUSEL.ENABLE (R23). -/
def carouselEnableVerb (args : List Text) (s : State) : State × Reply :=
  if s.saving then refuse .busy s
  else match args with
    | [a, b] => match argNum 0 15 a, argFlag b with
      | some e, some f => accept { s with crs := { s.crs with enables := Table.set (fun _ => true) s.crs.enables e f } }
      | _, _ => refuse .args s
    | _ => refuse .args s

def execCarouselEnable (l : Lane) (s : State) : Outcome := dispatch .carouselEnable l carouselEnableVerb s

/-- A mode as reply fields: its word, with n or e where it has one (R23). -/
def modeFields : CarouselMode → List Field
  | .cycle => [fWord "CYCLE"]
  | .burst n => [fWord "BURST", fNum n]
  | .hold e => [fWord "HOLD", fNum e]
  | .stopped => [fWord "STOPPED"]

/-- CAROUSEL.READ (R23). That the enabled flags stand as 1 or 0, together as one field, is the model's choice (log 14). -/
def carouselReadVerb (args : List Text) (s : State) : Reply :=
  match args with
  | [] => .ok (modeFields s.crs.mode ++ [fNum s.crs.cursor, fNum s.crs.burst]
      ++ [((List.range 16).map fun e => fFlag (s.entryEnabled e)).flatten] ++ [fText s.crs.text])
  | _ => .err .args

def execCarouselRead (l : Lane) (s : State) : Outcome := answer .carouselRead l carouselReadVerb s

/-- A circuit of the list completes under a mode (R21, R22): in BURST the count falls by 1, and at 0 the mode becomes
STOPPED with CAROUSEL attention. -/
def completeCircuit (s : State) : State :=
  let s1 := { s with crs := { s.crs with cursor := 0 } }
  match s1.crs.mode with
  | .burst _ =>
    let s2 := { s1 with crs := { s1.crs with burst := s1.crs.burst - 1 } }
    if s1.crs.burst ≤ 1 then raise .carousel { s2 with crs := { s2.crs with mode := .stopped } } else s2
  | .cycle => s1
  | .hold _ => s1
  | .stopped => s1

/-- CRS moves its cursor after sending entry `e` (R21): in CYCLE and BURST only. -/
def afterSending (e : Nat) (s : State) : State :=
  let higher := (List.range 16).any fun k => e < k && s.eligibleEntry k
  let moved := if higher then { s with crs := { s.crs with cursor := e + 1 } } else completeCircuit s
  match s.crs.mode with
  | .cycle => moved
  | .burst _ => moved
  | .hold _ => s
  | .stopped => s

end Sys2Proof.Machine
end

