-- ==== Sys2Proof/Machine/Purchases.lean ====
section
/-! DEFINITION. Purchase Intake (5.4): the judgment of a purchase and its effects; INTAKE.MODE and INTAKE.STATUS. -/

namespace Sys2Proof.Machine

/-- The effective intake mode (R97). -/
def State.effectiveMode (s : State) : IntakeMode :=
  match s.pin.mode with
  | .normal => if reserve < s.free then .normal else .defer
  | .defer => .defer
  | .refuse => .refuse

/-- The outcomes of a judgment (R98). -/
inductive Verdict where
  | denied | deferred | repeated | taken
  deriving DecidableEq, Repr

/-- The event `p` is ORDERING or SHOWING (R98). -/
def State.onSale (s : State) (p : Nat) : Bool :=
  (s.findEvent p).any fun e => e.2.state == .ordering || e.2.state == .showing

/-- PIN's judgment of a purchase of `p` by drop `d` under NORMAL (the table of R98 from its third row). -/
def judgeNormal (s : State) (d p : Nat) : Verdict :=
  let r := s.drop d
  if !s.onSale p then .denied
  else if r.service ≠ .active then .denied
  else if p ∈ r.events then .repeated
  else if 4 ≤ r.events.length then .denied
  else if 64 ≤ s.aen.queue.length ∧ r.link ≠ some .queued then .deferred
  else .taken

/-- PIN's judgment (R98). -/
def judgePurchase (s : State) (d p : Nat) : Verdict :=
  match s.effectiveMode with
  | .refuse => .denied
  | .defer => .deferred
  | .normal => judgeNormal s d p

/-- The urgent request of R99 and R100, made when the queue has a place or the drop is QUEUED. -/
def purchaseRequest (d : Nat) (s : State) : State :=
  if s.aen.queue.length < 64 ∨ (s.drop d).link = some .queued then request .purchase true d s else s

/-- The price of event `p` as the table holds it (R99). -/
def State.priceOf (s : State) (p : Nat) : Nat := ((s.findEvent p).map fun e => e.2.cfg.price).getD 0

/-- A purchase is TAKEN (R99). -/
def takePurchase (d p : Nat) (s : State) : State :=
  let r := s.drop d
  let s1 := s.setDrop d { r with events := r.events ++ [p] }
  let s2 := writeRecord (.purchase d r.account p (s.priceOf p)) s1
  raise .purchase (request .purchase true d s2)

/-- PIN takes a purchase: its judgment and its effects (R98 to R100). Id 0 is no purchase (R49). -/
def purchase (d p : Nat) (s : State) : State :=
  if p = 0 then s
  else match judgePurchase s d p with
    | .taken => takePurchase d p s
    | .repeated => purchaseRequest d s
    | .denied => raise .purchase (purchaseRequest d s)
    | .deferred => s

/-- The mode words (R96). -/
def intakeWords : List (String × IntakeMode) := [("NORMAL", .normal), ("DEFER", .defer), ("REFUSE", .refuse)]

/-- A mode's word. -/
def intakeWord : IntakeMode → String
  | .normal => "NORMAL"
  | .defer => "DEFER"
  | .refuse => "REFUSE"

/-- INTAKE.MODE (R96). -/
def intakeModeVerb (args : List Text) (s : State) : State × Reply :=
  if s.saving then refuse .busy s
  else match args with
    | [a] => match argWordOf intakeWords a with
      | some m => accept { s with pin := { s.pin with mode := m } }
      | none => refuse .args s
    | _ => refuse .args s

def execIntakeMode (l : Lane) (s : State) : Outcome := dispatch .intakeMode l intakeModeVerb s

/-- INTAKE.STATUS (R102). -/
def intakeStatusVerb (args : List Text) (s : State) : Reply :=
  match args with
  | [] => .ok [fWord (intakeWord s.pin.mode), fWord (intakeWord s.effectiveMode), fNum s.free]
  | _ => .err .args

def execIntakeStatus (l : Lane) (s : State) : Outcome := answer .intakeStatus l intakeStatusVerb s

end Sys2Proof.Machine
end

