-- ==== Sys2Proof/Machine/Authorization.lean ====
section
/-! DEFINITION. The Authorization Engine (4.3, 4.5, 4.6): the send and the window outcomes, the waves, AUTH.STATUS. The
queue itself is in Ops.lean. -/

namespace Sys2Proof.Machine

/-! ## Sends and outcomes -/

/-- AEN takes the grant for the head entry (R67, steps 1 and 2). -/
def sendAuthorize (d : Nat) (s : State) : State :=
  let s1 := s.setQueue s.aen.queue.tail
  s1.setDrop d { s1.drop d with link := some .awaiting, attempts := (s1.drop d).attempts + 1 }

/-- Writes the link state of drop `d`. -/
def setLink (l : Link) (d : Nat) (s : State) : State := s.setDrop d { s.drop d with link := some l }

/-- A drop is left UNCONFIRMED with attention `k`; a CLOSING drop becomes VACANT with AUTH attention instead (R78, R79,
R92, R93). -/
def leaveUnconfirmed (k : Kind) (d : Nat) (s : State) : State :=
  if (s.drop d).service = .closing then raise .auth (vacate d s) else raise k (setLink .unconfirmed d s)

/-- An outcome's queue request for a drop that is no longer AWAITING; no place leaves it UNCONFIRMED (R78, R79, R92,
R93). -/
def requestAgain (cls : QClass) (k : Kind) (d : Nat) (s : State) : State :=
  let (s1, res) := queueRequest cls false d s
  if res = .noPlace then leaveUnconfirmed k d s1 else s1

/-- What every ACK does to its drop first: the counts, park-on-close and the time of confirmation (R78, R92, steps 1
and 2). -/
def Drop.confirmed (stamp : Option Word) (r : Drop) : Drop :=
  { r with
    attempts := 0
    misses := 0
    parkOnClose := false
    lastConfirmed := match stamp with
      | some t => some t
      | none => r.lastConfirmed }

/-- The link effect of an ACK (R78, R92); `k` is the attention when a REQUEUE finds no place. -/
def linkAck (k : Kind) (d : Nat) (s : State) : State :=
  let r := s.drop d
  let s1 := s.setDrop d { r.confirmed s.stamp with link := some .settled, stale := false }
  if r.stale then requestAgain .requeue k d s1
  else if r.service = .closing then vacate d s1
  else s1

/-- AEN takes the ACK of an AUTH window (R78), then PIN its purchase (R49, R74). -/
def authAck (d p : Nat) (s : State) : State :=
  purchase d p (if (s.drop d).service = .vacant then s else linkAck .auth d s)

/-- A window's miss with park-on-close set, or in an outage under a refresh (R79, R93, case 1). -/
def Drop.parkedByMiss (r : Drop) : Drop := { r with link := some .parked, parkOnClose := false, stale := false }

/-- AEN takes the miss of an AUTH window: the cases of R79. A miss that comes before the outage mark may so leave the drop
UNCONFIRMED, as case 4 and R81's own second case say and R81's closing sentence denies: the model follows the cases, its
choice (log 52). -/
def authMiss (d : Nat) (s : State) : State :=
  let r := s.drop d
  if r.service = .vacant then s
  else if r.parkOnClose then s.setDrop d { r.parkedByMiss with attempts := 0 }
  else
    let s1 := s.setDrop d { r with link := some .unconfirmed, stale := false }
    if r.stale then requestAgain .requeue .auth d s1
    else if r.attempts < s.params.authTries then requestAgain .retry .auth d s1
    else leaveUnconfirmed .auth d s1

/-! ## Waves (4.6) -/

/-- The event with this id has ENDED. -/
def State.hasEnded (s : State) (id : Nat) : Bool := (s.findEvent id).any fun e => e.2.state == .ended

/-- The event list a visit leaves (R84). -/
def strippedEvents (s : State) (c : Criterion) (ids : List Nat) : List Nat :=
  match c with
  | .tiers _ => ids
  | .event id => ids.filter fun x => x != id
  | .all => ids.filter fun x => !s.hasEnded x

/-- The drop matches the criterion (R84); tier 0 is in every tier set. -/
def matchesWave (c : Criterion) (r : Drop) : Bool :=
  r.service == .active && match c with
    | .tiers m => ((r.tiers ||| tierBit 0) &&& m) != 0#16
    | .event id => r.events.contains id
    | .all => true

/-- The stripping of a visit, with the stale mark of an AWAITING drop that lost an id (R84). -/
def stripDrop (c : Criterion) (d : Nat) (s : State) : State :=
  let r := s.drop d
  let ids := strippedEvents s c r.events
  if ids = r.events then s
  else s.setDrop d { r with events := ids, stale := r.stale || r.link == some .awaiting }

/-- A visit writes the cursor of the head wave and whether the engine is paused; none is owed any more. -/
def State.setWaveCursor (n : Nat) (paused : Bool) (s : State) : State :=
  { s with aen := { s.aen with
      paused := paused
      owed := false
      waves := match s.aen.waves with
        | [] => []
        | w :: ws => { w with cursor := n } :: ws } }

/-- The engine visits drop `d` for criterion `c` (R84, R85; log 43 for an EVENT wave that paused). -/
def visitDrop (c : Criterion) (d : Nat) (s : State) : State :=
  let r := s.drop d
  if r.service = .vacant then s.setWaveCursor (d + 1) false
  else
    let s1 := stripDrop c d s
    if matchesWave c r then
      let (s2, res) := queueRequest .wave false d s1
      if res = .noPlace then s2.setWaveCursor d true else s2.setWaveCursor (d + 1) false
    else s1.setWaveCursor (d + 1) false

/-- The engine can visit: it advances, its head has drops left, and a paused engine is owed the visit behind a settle
pass's request, or finds fewer than 56 entries with no settle pass paused before it (R66, R83, R85; log 27). -/
def State.canVisitWave (s : State) : Bool :=
  s.passesAdvance
    && s.aen.waves.head?.any (fun w => !w.running || decide (w.cursor < 2048))
    && (!s.aen.paused || s.aen.owed || (decide (s.aen.queue.length < 56) && !s.olz.paused))

/-- WAVE_VISIT: a WAITING head becomes RUNNING, and the engine visits the drop at its cursor (R83). -/
def waveVisit (s : State) : State :=
  let s1 := startHead s
  match s1.aen.waves with
  | [] => s1
  | w :: _ => visitDrop w.criterion w.cursor s1

def execWaveVisit (s : State) : Outcome := if s.canVisitWave then done (waveVisit s) else .next s

/-- The events a completed criterion covers (R14, R83). -/
def coveredBy (c : Criterion) (e : Event) : Bool :=
  e.state == .ended && match c with
    | .tiers _ => false
    | .event id => e.cfg.id == id
    | .all => e.endedBeforeAll

/-- LUR takes the completion of a wave: the cleanup flags (R14, R83). -/
def waveCompleted (c : Criterion) (s : State) : State :=
  s.eventEntries.foldl (fun s e => if coveredBy c e.2 then s.setEvent e.1 (some { e.2 with cleanup := true }) else s) s

/-- The head wave is complete (R83). -/
def State.waveEnds (s : State) : Bool :=
  s.passesAdvance && s.aen.waves.head?.any fun w => w.running && decide (2048 ≤ w.cursor)

/-- WAVE_COMPLETE (R83). -/
def waveComplete (s : State) : State :=
  match s.aen.waves with
  | [] => s
  | w :: ws => startHead (waveCompleted w.criterion { s with aen := { s.aen with waves := ws, paused := false, owed := false } })

def execWaveComplete (s : State) : Outcome := if s.waveEnds then done (waveComplete s) else .next s

/-- A wave entry as reply fields (R86): its criterion, its state letter, and the cursor of the RUNNING entry. -/
def waveFields (w : Wave) : List Field :=
  [match w.criterion with
    | .tiers m => [.word "T"] ++ fList (((List.range 16).filter fun n => m.getLsbD n).map fNum)
    | .event id => [.word "E", .num id]
    | .all => [.word "A"],
   fWord (if w.running then "R" else "W")]
  ++ (if w.running then [fNum w.cursor] else [])

/-- The first eight queue entries as reply fields (R86). -/
def queueFields (q : List QEntry) : List Field :=
  if q.isEmpty then [fDash]
  else (q.take 8).map fun e => [.num e.drop] ++ if e.urgent then [.word "+"] else []

/-- AUTH.STATUS (R86). Of an empty wave list there is no field: the model's choice (log 14). -/
def authStatusVerb (args : List Text) (s : State) : Reply :=
  match args with
  | [] => .ok ([fNum s.aen.queue.length, fNum (s.aen.queue.filter fun e => e.urgent).length]
      ++ queueFields s.aen.queue ++ (s.aen.waves.map waveFields).flatten ++ [if s.aen.paused then fWord "P" else fDash])
  | _ => .err .args

def execAuthStatus (l : Lane) (s : State) : Outcome := answer .authStatus l authStatusVerb s

end Sys2Proof.Machine
end

