-- ==== Sys2Proof/Machine/Refresh.lean ====
section
/-! DEFINITION. The Refresh Sweeper (5.1 to 5.3): the counter, the send, the window outcomes, REFRESH.STATUS. -/

namespace Sys2Proof.Machine

/-- The counter runs in every run state but LOADING (R87, R88). -/
def State.countsRefresh (s : State) : Bool := s.sst.runState != .loading

/-- RSW takes the count of one boundary (R88). -/
def refreshCount (s : State) : State :=
  if s.params.refreshStep ≤ s.rsw.counter + 1 then { s with rsw := { s.rsw with counter := 0, request := true } }
  else { s with rsw := { s.rsw with counter := s.rsw.counter + 1 } }

/-- The count that the coming boundary brings expires, and has not been taken yet (R88; log 4). -/
def State.expiryComes (s : State) : Bool :=
  s.countsRefresh && !s.rsw.counted && decide (s.params.refreshStep ≤ s.rsw.counter + 1)

/-- REFRESH_COUNTER_EXPIRY: RSW takes the expiring count of the coming boundary before that boundary's other work
(R88; log 4). -/
def execRefreshCounterExpiry (s : State) : Outcome :=
  if s.expiryComes then
    let s1 := refreshCount s
    done { s1 with rsw := { s1.rsw with counted := true } }
  else .next s

/-- RSW's part of a boundary: its count, unless REFRESH_COUNTER_EXPIRY has taken it (R88). -/
def boundaryCount (s : State) : State :=
  if s.rsw.counted then { s with rsw := { s.rsw with counted := false } }
  else if s.countsRefresh then refreshCount s
  else s

/-- RSW takes the grant for drop `d` (R91). -/
def sendRefresh (d : Nat) (s : State) : State :=
  let prior := ((s.drop d).link).getD .unconfirmed
  let s1 : State := { s with rsw := { s.rsw with
    cursor := d, request := false, outstanding := s.rsw.outstanding ++ [⟨d, prior⟩] } }
  setLink .awaiting d s1

/-- RSW takes the drop's record from the outstanding list (5.3): the link state before the send. -/
def takeOutstanding (d : Nat) (s : State) : State × Link :=
  ({ s with rsw := { s.rsw with outstanding := s.rsw.outstanding.filter fun o => o.drop != d } },
    ((s.rsw.outstanding.find? fun o => o.drop == d).map fun o => o.link).getD .unconfirmed)

/-- RSW takes the ACK of a REFRESH window (R92, R94), then PIN its purchase. -/
def refreshAck (d p : Nat) (s : State) : State :=
  let s1 := (takeOutstanding d s).1
  purchase d p (if (s1.drop d).service = .vacant then s1 else linkAck .refresh d s1)

/-- The link effect of a refresh miss on a drop whose link was `prior` before the send (R93). -/
def linkRefreshMiss (prior : Link) (d : Nat) (s : State) : State :=
  let r := s.drop d
  let n := min 15 (r.misses + 1)
  let reached := decide (s.params.refreshMisses ≤ n)
  if r.outage.isSome || r.parkOnClose then s.setDrop d r.parkedByMiss
  else if r.stale then
    raiseIf reached .refresh
      (requestAgain .requeue .refresh d (s.setDrop d { r with misses := n, stale := false, link := some .unconfirmed }))
  else if reached then leaveUnconfirmed .refresh d (s.setDrop d { r with misses := n })
  else s.setDrop d { r with misses := n, link := some prior }

/-- RSW takes the miss of a REFRESH window (R93, R94). -/
def refreshMiss (d : Nat) (s : State) : State :=
  let (s1, prior) := takeOutstanding d s
  if (s1.drop d).service = .vacant then s1 else linkRefreshMiss prior d s1

/-- REFRESH.STATUS (R95). -/
def refreshStatusVerb (args : List Text) (s : State) : Reply :=
  match args with
  | [] => .ok ([fNum s.rsw.counter, fNum s.params.refreshStep, if s.rsw.request then fWord "P" else fDash,
      fNum s.rsw.cursor, fOpt fNum s.candidate]
      ++ if s.rsw.outstanding.isEmpty then [fDash]
        else s.rsw.outstanding.map fun o => [.num o.drop, .word (if o.link = .settled then "S" else "U")])
  | _ => .err .args

def execRefreshStatus (l : Lane) (s : State) : Outcome := answer .refreshStatus l refreshStatusVerb s

end Sys2Proof.Machine
end

