-- ==== Sys2Proof/Machine/Emergency.lean ====
section
/-! DEFINITION. The emergency override and the ALERT cadence (1.6): EMERGENCY.ON, EMERGENCY.OFF, the expiry and the ALERT
due times. -/

namespace Sys2Proof.Machine

/-- Writes the override. -/
def State.setOverride (o : Override) (s : State) : State := { s with lur := { s.lur with override := o } }

/-- EMERGENCY.ON's arguments: alert source, duration, alert slot, code (R17). -/
def argsEmergencyOn : List Text → Option (Nat × Nat × Nat × Nat)
  | [a, b, c, d] => do
    let source ← argSource a
    let duration ← argNum 1 3600 b
    let slot ← argSlot c
    let code ← argNum 0 255 d
    return (source, duration, slot, code)
  | _ => none

/-- An accepted EMERGENCY.ON (R17). Slots are resolved again when the override starts or its source changes. -/
def emergencyOnEffect (source duration slot code : Nat) (s : State) : State :=
  let old := s.lur.override
  let s1 := s.setOverride ⟨true, source, slot, code, s.tmb.run + BitVec.ofNat 32 duration,
    s.tmb.run + BitVec.ofNat 32 s.params.alertInterval, true⟩
  if old.active ∧ old.source = source then s1 else resolveNonExempt s1

/-- EMERGENCY.ON (R17). -/
def emergencyOnVerb (args : List Text) (s : State) : State × Reply :=
  match argsEmergencyOn args with
  | none => refuse .args s
  | some (source, duration, slot, code) =>
    if (s.source source).cfg.kind ≠ .alert then refuse .args s
    else if !(s.slot slot).cfg.enabled then refuse .state s
    else accept (emergencyOnEffect source duration slot code s)

def execEmergencyOn (l : Lane) (s : State) : Outcome := dispatch .emergencyOn l emergencyOnVerb s

/-- The override ends (R18): inactive, ALERT readiness withdrawn, EMERGENCY attention, slots resolved again. -/
def endOverride (s : State) : State :=
  resolveNonExempt (raise .emergency (s.setOverride { s.lur.override with active := false, ready := false }))

/-- EMERGENCY.OFF (R18). An argument is ARGS also while no override is active: the model's choice (log 32). -/
def emergencyOffVerb (args : List Text) (s : State) : State × Reply :=
  match args with
  | [] => if s.lur.override.active then accept (endOverride s) else refuse .state s
  | _ => refuse .args s

def execEmergencyOff (l : Lane) (s : State) : Outcome := dispatch .emergencyOff l emergencyOffVerb s

/-- The expiry is due: the override is active and its expiry run second has been reached (R18). -/
def State.expiryDue (s : State) : Bool := s.lur.override.active && s.tmb.run == s.lur.override.expiry

/-- LUR takes the expiry when it is due (R18). -/
def takeExpiry (s : State) : State := if s.expiryDue then endOverride s else s

def execEmergencyExpiry (s : State) : Outcome := done (takeExpiry s)

/-- An ALERT is due: the override is active and the next ALERT due run second has been reached (R19). -/
def State.alertIsDue (s : State) : Bool := s.lur.override.active && s.tmb.run == s.lur.override.nextDue

/-- LUR takes the ALERT due: the sender becomes ready, or stays so, and the due time advances (R19). -/
def takeAlert (s : State) : State :=
  if s.alertIsDue then
    let o := s.lur.override
    s.setOverride { o with ready := true, nextDue := o.nextDue + BitVec.ofNat 32 s.params.alertInterval }
  else s

def execAlertDue (s : State) : Outcome := done (takeAlert s)

end Sys2Proof.Machine
end

