-- ==== Sys2Proof/Machine/Outages.lean ====
section
/-! DEFINITION. The Outage Localizer (chapter 7): opening, absorbing and splitting records, the transition of one drop,
the settle pass, and the reading verbs OUTAGE.READ and OUTAGE.LIST. -/

namespace Sys2Proof.Machine

/-! ## Opening and ending records (7.1, 7.2) -/

/-- The log has room: a free entry or a CLOSED record (R120). -/
def State.hasRoom (s : State) : Bool := s.olz.log.length < 64 || !s.olz.closedOrder.isEmpty

/-- The log with a free entry: if there is none, the record that became CLOSED earliest is removed (R120). -/
def makeRoom (o : Olz) : Olz :=
  if o.log.length < 64 then o
  else match o.closedOrder with
    | [] => o
    | n :: rest => { o with log := o.log.filter (fun r => r.number != n), closedOrder := rest }

/-- The number after `n`, from 65535 to 1 (R120). -/
def nextOutageNumber (n : Nat) : Nat := if 65535 ≤ n then 1 else n + 1

/-- The first number from `n` on that no record of the log holds; 64 records hold at most 64 (R120). -/
def freeOutageNumber (log : List Outage) : Nat → Nat → Nat
  | 0, n => n
  | fuel + 1, n => if log.any (fun o => o.number == n) then freeOutageNumber log fuel (nextOutageNumber n) else n

/-- OLZ opens a record and puts its number in the settle set, with OUTAGE attention (R120, R127). The log has room.
The second part is the record's number. -/
def openRecord (kind : OutageKind) (credit : Bool) (root : Nat) (openRun : Word) (openStation : Option Word)
    (s : State) : State × Nat :=
  let o := makeRoom s.olz
  let n := freeOutageNumber o.log 64 o.nextNumber
  let rec' : Outage := ⟨n, kind, credit, root, .opened, none, [], false, openRun, openStation, none, 0, 0⟩
  (raise .outage { s with olz := { o with
      log := o.log ++ [rec'], nextNumber := nextOutageNumber n, settle := insertNumber n o.settle } }, n)

/-- An OPEN record becomes CLEARING (R119), joins the settle set (R127), with OUTAGE attention (R120). -/
def clearRecord (n : Nat) (reason : CloseReason) (successors : List Nat) (more : Bool) (s : State) : State :=
  let s1 := mapRecord n (fun o => { o with
    state := .clearing, reason := some reason, successors := successors, more := more, closeStation := s.stamp }) s
  raise .outage { s1 with olz := { s1.olz with settle := insertNumber n s1.olz.settle } }

/-- The open run second in station time: station time now less the run seconds since (R119). -/
def stationOf (s : State) (openRun : Word) : Option Word :=
  if s.tmb.timeSet then some (s.tmb.station - (s.tmb.run - openRun)) else none

/-- PPL sets or clears a unit's unlogged flag at OLZ's asking (R115). -/
def setUnlogged (b : Bool) (u : Nat) (s : State) : State := s.setUnit u { s.unit u with unlogged := b }

/-- OLZ asks PPL to set a unit's unlogged flag, with OUTAGE attention (R120, R122). -/
def flagUnlogged (u : Nat) (s : State) : State := raise .outage (setUnlogged true u s)

/-- OLZ opens a SILENT record at unit `u` and absorbs the OPEN SILENT records below it (R122). The log has room. -/
def openSilent (u : Nat) (s : State) : State :=
  let since := ((s.unit u).missingSince).getD s.tmb.run
  let (s1, n) := openRecord .silent true u since (stationOf s since) s
  let absorbed := (s1.olz.log.filter fun o => o.state == .opened && o.kind == .silent && s1.below o.root u).map
    fun o => o.number
  absorbed.foldl (fun s m => clearRecord m .absorbed [n] false s) s1

/-- A root of an OPEN record of either kind lies on the path of `u`, `u` included (R122, R123). -/
def State.explained (s : State) (u : Nat) : Bool := (s.path u).any fun v => (s.openAt v).isSome

/-- PPL reports that unit `u` has entered SILENT (R122). -/
def enteredSilent (u : Nat) (s : State) : State :=
  if s.explained u then s
  else if s.hasRoom then openSilent u s
  else flagUnlogged u s

/-- The search for unlogged units, each time a record becomes CLOSED (R123). -/
def searchUnlogged (s : State) : State :=
  s.unitKeys.foldl (fun s u =>
    let r := s.unit u
    if r.state = .silent ∧ r.unlogged ∧ !s.explained u ∧ s.hasRoom then setUnlogged false u (openSilent u s) else s) s

/-- A unit that is MISSING or SILENT. -/
def PlantUnit.dark (r : PlantUnit) : Bool := r.state == .missing || r.state == .silent

/-- The split roots below `r`: dark units with no dark unit strictly between them and `r` on their path (R124). A dark
unit whose poll holds its excuse, below an OPEN DECLARED root, is one too: R124 says so and R120's law says not, and the
model follows R124 (log 48). -/
def splitRoots (s : State) (r : Nat) : List Nat :=
  s.unitKeys.filter fun u =>
    s.below u r && (s.unit u).dark
      && !(((s.path u).takeWhile fun v => v != r).any fun v => v != u && (s.unit v).dark)

/-- Opens a SILENT record for each split root in turn while the log has room; the rest stay without (R124). Gives the
numbers opened, and the roots left without a record. -/
def openSplits (ended : Outage) : List Nat → State → State × List Nat × List Nat
  | [], s => (s, [], [])
  | u :: us, s =>
    if s.hasRoom then
      let (s1, n) := openRecord .silent true u ended.openRun ended.openStation s
      let (s2, ns, left) := openSplits ended us (setUnlogged false u s1)
      (s2, n :: ns, left)
    else (s, [], u :: us)

/-- The OPEN SILENT record `o` ends, its root having recovered (R124). -/
def endSilent (o : Outage) (s : State) : State :=
  let (s1, ns, left) := openSplits o (splitRoots s o.root) s
  let s2 := if ns.isEmpty then clearRecord o.number .cleared [] false s1
    else clearRecord o.number .split (ns.take 8) (decide (8 < ns.length)) s1
  (left.filter fun u => (s.unit u).state == .silent).foldl (fun s u => flagUnlogged u s) s2

/-- PPL reports that unit `r` has entered ANSWERING or OUT_OF_SERVICE from MISSING or SILENT (R124). -/
def unitRecovered (r : Nat) (s : State) : State :=
  match s.olz.log.find? fun o => o.state == .opened && o.kind == .silent && o.root == r with
  | some o => endSilent o s
  | none => s

/-! ## The transition of one drop (7.5) -/

/-- The later of two past run seconds, counted back from now (R131, R154). -/
def laterRun (now a b : Word) : Word := if now - a ≤ now - b then a else b

/-- Step 2 of R131: the drop leaves outage `m`. -/
def leaveOutage (d m : Nat) (s : State) : State :=
  let s1 := endEpisode d s
  leaveCount m (s1.setDrop d { s1.drop d with accrual := none, lastEnd := some s1.tmb.run, outage := none })

/-- Where an episode in record `o` starts for a drop with this last outage end (R131, step 3). -/
def episodeStart (now : Word) (o : Outage) (lastEnd : Option Word) : Word :=
  match lastEnd with
  | none => o.openRun
  | some e => laterRun now o.openRun e

/-- Step 3 of R131: the drop enters outage `n`. -/
def enterOutage (d n : Nat) (s : State) : State :=
  let r := s.drop d
  let accrual := if r.service = .active ∧ s.credits n then
      (s.record n).map fun o => episodeStart s.tmb.run o r.lastEnd
    else none
  enterCount n (s.setDrop d { r with outage := some n, accrual := accrual })

/-- The outage mark's effect on a drop that is not CLOSING (R80). It leaves an UNCONFIRMED drop as it is (log 52). -/
def markLink (d : Nat) (s : State) : State :=
  let r := s.drop d
  match r.link with
  | some .queued => (s.setQueue (removeEntry d s.aen.queue)).setDrop d { r with link := some .parked }
  | some .awaiting => s.setDrop d { r with parkOnClose := true }
  | some .settled => s
  | some .parked => s
  | some .unconfirmed => s
  | none => s

/-- The outage release's effect (R80): park-on-close is cleared. -/
def releaseLink (d : Nat) (s : State) : State := s.setDrop d { s.drop d with parkOnClose := false }

/-- Continuing accrual (R131, step 1): the drop moves from `m` to `n` with its accrual kept. -/
def continueIn (d m n : Nat) (s : State) : State :=
  enterCount n (leaveCount m (s.setDrop d { s.drop d with outage := some n }))

/-- The transition of drop `d` to outage `n`, either of the two outages possibly absent (R131, R133). A CLOSING drop
that is marked becomes VACANT and is never counted (R80, R135). -/
def transition (d : Nat) (n : Option Nat) (s : State) : State :=
  let r := s.drop d
  match r.outage, n with
  | none, none => s
  | none, some b => if r.service = .closing then vacate d s else markLink d (enterOutage d b s)
  | some a, none => releaseLink d (leaveOutage d a s)
  | some a, some b =>
    if a = b then s
    else if s.credits a && s.credits b && r.accrual.isSome then continueIn d a b s
    else enterOutage d b (leaveOutage d a s)

/-- The single-drop evaluation of a host verb (R134): the transition to the proper outage, then a HOST request for a
drop PARKED in no outage. -/
def evaluateDrop (d : Nat) (s : State) : State :=
  let s1 := transition d (s.proper d) s
  let r := s1.drop d
  if r.link = some .parked ∧ r.outage = none then (parkedRequest .host d s1).1 else s1

/-! ## The settle pass (7.4) -/

/-- A pass is running while the taken set is not empty (R127). -/
def State.passRunning (s : State) : Bool := !s.olz.taken.isEmpty

/-- A pass can start: none runs, the settle set is not empty, and passes advance (R127). -/
def State.canStartPass (s : State) : Bool := !s.passRunning && !s.olz.settle.isEmpty && s.passesAdvance

/-- The pass starts: the settle set moves into the taken set (R127). -/
def startPass (s : State) : State :=
  { s with olz := { s.olz with
      taken := s.olz.settle.map fun n => (n, (s.record n).any fun o => o.state == .clearing)
      settle := [], cursor := 0, paused := false } }

def execSettlePassStart (s : State) : Outcome := if s.canStartPass then done (startPass s) else .next s

/-- The number is in the taken set. -/
def State.isTaken (s : State) (n : Option Nat) : Bool := n.any fun k => s.olz.taken.any fun t => t.1 == k

/-- Writes the settle pass's cursor and paused flag. -/
def State.setPass (cursor : Nat) (paused : Bool) (s : State) : State :=
  { s with olz := { s.olz with cursor := cursor, paused := paused } }

/-- The transition a visit makes (R128): when current and proper differ and one of them is taken. -/
def settleMove (d : Nat) (s : State) : State :=
  let m := (s.drop d).outage
  let n := s.proper d
  if m ≠ n ∧ (s.isTaken m || s.isTaken n) then transition d n s else s

/-- The visit of the settle pass itself (R128, R129). -/
def settleAt (s : State) : State :=
  let d := s.olz.cursor
  if (s.drop d).service = .vacant then s.setPass (d + 1) false
  else
    let s1 := settleMove d s
    let r := s1.drop d
    if r.link = some .parked ∧ r.outage = none then
      let (s2, placed) := parkedRequest .settle d s1
      if placed then s2.setPass (d + 1) false else s2.setPass d true
    else s1.setPass (d + 1) false

/-- The paused wave engine is owed the visit behind a settle pass's request (R66; log 27). -/
def State.oweWaveVisit (s : State) : State := { s with aen := { s.aen with owed := true } }

/-- One visit of the settle pass (R128, R129). When the wave engine had paused beside the pass, the engine's visit comes
next, whatever place this visit took (R66; log 27). -/
def settleVisit (s : State) : State :=
  let t := settleAt s
  if s.olz.paused && s.aen.paused then t.oweWaveVisit else t

/-- A visit can be made: a pass runs, passes advance, drops are left, and a paused pass finds fewer than 56 entries
(R127, R129). -/
def State.canSettle (s : State) : Bool :=
  s.passRunning && s.passesAdvance && decide (s.olz.cursor < 2048)
    && (!s.olz.paused || decide (s.aen.queue.length < 56))

def execSettleVisit (s : State) : Outcome := if s.canSettle then done (settleVisit s) else .next s

/-- A record taken while CLEARING becomes CLOSED, with OUTAGE attention and a search for unlogged units (R130). -/
def closeRecord (n : Nat) (s : State) : State :=
  let s1 := mapRecord n (fun o => { o with state := .closed }) s
  searchUnlogged (raise .outage { s1 with olz := { s1.olz with closedOrder := s1.olz.closedOrder ++ [n] } })

/-- The end of the pass (R130): the records taken while CLEARING close, in ascending number (log 25); the taken set
empties; the next pass starts at once if the settle set is not empty. -/
def endPass (s : State) : State :=
  let s1 := s.olz.taken.foldl (fun s t => if t.2 then closeRecord t.1 s else s) s
  let s2 : State := { s1 with olz := { s1.olz with taken := [], paused := false } }
  if s2.canStartPass then startPass s2 else s2

/-- The pass has visited every drop (R130). -/
def State.passEnds (s : State) : Bool := s.passRunning && s.passesAdvance && decide (2048 ≤ s.olz.cursor)

def execSettlePassEnd (s : State) : Outcome := if s.passEnds then done (endPass s) else .next s

/-! ## Reading the log (7.7) -/

def OutageKind.word : OutageKind → String
  | .silent => "SILENT"
  | .declared => "DECLARED"

def OutageState.word : OutageState → String
  | .opened => "OPEN"
  | .clearing => "CLEARING"
  | .closed => "CLOSED"

def CloseReason.word : CloseReason → String
  | .cleared => "CLEARED"
  | .absorbed => "ABSORBED"
  | .split => "SPLIT"
  | .ended => "ENDED"

/-- OUTAGE.READ's reply fields (R137). -/
def outageFields (o : Outage) : List Field :=
  [fNum o.number, fWord o.kind.word, fFlag o.credit, fNum o.root, fWord o.state.word,
   fOpt (fun r => fWord r.word) o.reason,
   fList (o.successors.map fNum) ++ (if o.more then [.word "+"] else []),
   fTime o.openRun, fOpt fTime o.openStation, fOpt fTime o.closeStation, fNum o.affectedNow, fNum o.affectedPeak]

/-- An outage number. -/
def argOutage (t : Text) : Option Nat := argNum 1 65535 t

/-- OUTAGE.READ (R137). -/
def outageReadVerb (args : List Text) (s : State) : Reply :=
  match args with
  | [a] => match argOutage a with
    | none => .err .args
    | some n => match s.record n with
      | none => .err .range
      | some o => .ok (outageFields o)
  | _ => .err .args

def execOutageRead (l : Lane) (s : State) : Outcome := answer .outageRead l outageReadVerb s

/-- The room of the log: free entries plus CLOSED records (R138). -/
def State.roomCount (s : State) : Nat :=
  (64 - s.olz.log.length) + (s.olz.log.filter fun o => o.state == .closed).length

/-- The state words of OUTAGE.LIST (R138). -/
def outageStateWords : List (String × OutageState) := [("OPEN", .opened), ("CLEARING", .clearing), ("CLOSED", .closed)]

/-- The log's numbers, ascending. -/
def State.numbers (s : State) : List Nat := s.olz.log.foldl (fun l o => insertNumber o.number l) []

/-- OUTAGE.LIST's reply fields (R138). Of no records in the named state there is no field: the model's choice (log 14). -/
def outageListFields (st : OutageState) (start : Nat) (s : State) : List Field :=
  let (found, cont) := listFrom (fun n => (s.record n).any fun o => o.state == st) s.numbers start 65535
  [fNum s.olz.log.length, fNum s.roomCount, fNum s.olz.nextNumber, fNum s.olz.settle.length,
   if s.passRunning then fNum s.olz.cursor ++ (if s.olz.paused then [.word "P"] else []) else fDash]
  ++ (found.map fun n => [fNum n, fNum (((s.record n).map fun o => o.root).getD 0)]).flatten ++ [fOpt fNum cont]

/-- OUTAGE.LIST (R138), carried on the priority lane. -/
def outageListVerb (args : List Text) (s : State) : Reply :=
  match args with
  | [a, b] => match argWordOf outageStateWords a, argOutage b with
    | some st, some start => .ok (outageListFields st start s)
    | _, _ => .err .args
  | _ => .err .args

def execOutageList (l : Lane) (s : State) : Outcome := answer .outageList l outageListVerb s

end Sys2Proof.Machine
end

