-- ==== Sys2Proof/Machine/Plant.lean ====
section
/-! DEFINITION. The Plant Poller (chapter 6): the poll cycle, the poll in progress and its outcomes, the verbs UNIT.* and
POLL.STATUS; and the declared outages (7.3), which excuse its units: OUTAGE.DECLARE and OUTAGE.END. -/

namespace Sys2Proof.Machine

/-! ## Units -/

/-- A unit that is defined (R103). -/
def PlantUnit.defined (r : PlantUnit) : Bool := r.cfg.kind != .none

/-- A kind that carries a transponder (R103, R111). -/
def hasTransponder : UnitKind → Bool
  | .none => false
  | .trunkAmp => true
  | .bridger => true
  | .lineExt => true
  | .split => false

/-- A unit is pollable (R111). -/
def PlantUnit.pollable (r : PlantUnit) : Bool := hasTransponder r.cfg.kind && r.cfg.inService && r.state != .excused

/-- The unit in a state in which nothing is missed (R103): UNKNOWN, ANSWERING, EXCUSED or OUT_OF_SERVICE. -/
def PlantUnit.settledTo (st : UnitState) (r : PlantUnit) : PlantUnit :=
  { r with state := st, missed := 0, missingSince := none, unlogged := false }

/-- Unit `u` becomes OUT_OF_SERVICE, with the report of R115 when it was MISSING or SILENT. -/
def leaveService (u : Nat) (s : State) : State :=
  let r := s.unit u
  let s1 := s.setUnit u (r.settledTo .outOfService)
  if r.dark then unitRecovered u s1 else s1

/-! ## The poll in progress -/

/-- Writes the poll record. -/
def State.setPoll (p : Option Poll) (s : State) : State := { s with ppl := { s.ppl with poll := p } }

/-- The poll record is removed (R113, R114, R116): in RUN the cycle goes on behind the unit, otherwise the cycle is
over (R117; log 36). -/
def removePoll (s : State) : State :=
  if s.sst.runState = .run then { s with ppl := { s.ppl with poll := none, cursor := s.ppl.cursor + 1 } }
  else { s with ppl := { s.ppl with poll := none, running := false, cursor := 0 } }

/-- The change held through a poll is applied to its unit as it now stands (R116). -/
def applyHeld (u : Nat) (s : State) : State :=
  let r := s.unit u
  if !r.defined then s
  else if !r.cfg.inService then leaveService u s
  else if s.underDeclared u then s.setUnit u (r.settledTo .excused)
  else s

/-- The end of the poll `p` (R116): its record goes, then a held change is applied. -/
def endPoll (p : Poll) (s : State) : State :=
  let s1 := removePoll s
  if p.heldChange then applyHeld p.unit s1 else s1

/-- The poll in progress on unit `u`, if that is the unit under poll. -/
def State.pollOf (s : State) (u : Nat) : Option Poll := s.ppl.poll.filter fun p => p.unit == u

/-- A change to the service or excuse of the unit under poll `p` (R116): held while a window is open, else the poll
ends at once and the change is applied. -/
def holdChange (p : Poll) (s : State) : State :=
  let p' : Poll := { p with heldChange := true }
  if p.windowOpen then s.setPoll (some p') else endPoll p' s

/-- Window `w` is that of the poll in progress (R113, R114; log 23). -/
def Poll.owns (p : Poll) (w : Window) : Bool := p.windowOpen && p.unit == w.owner && p.address == w.address

/-- The conditions a status shows, POWER and LEVEL (R113). -/
def UnitStatus.conditions (st : UnitStatus) : Bool × Bool := (st.supply != 0, st.levelClass != 0)

/-- The poll of unit `u` is answered (R113, steps 1 to 4). -/
def unitAnswered (u : Nat) (st : UnitStatus) (s : State) : State :=
  let r := s.unit u
  let r1 : PlantUnit :=
    { r.settledTo .answering with last := some st, power := st.conditions.1, level := st.conditions.2 }
  let s1 := raiseIf (st.conditions != (r.power, r.level)) .plant (s.setUnit u r1)
  if r.dark then unitRecovered u s1 else s1

/-- PPL takes a STATUS answer from window `w` (R113). -/
def pollAnswer (w : Window) (st : UnitStatus) (s : State) : State :=
  match s.ppl.poll with
  | none => s
  | some p => if p.owns w then endPoll p (unitAnswered p.unit st s) else s

/-- The unit after one more missed cycle whose poll began at run second `since` (R114). -/
def PlantUnit.missedCycle (silentCycles : Nat) (since : Word) (r : PlantUnit) : PlantUnit :=
  let n := min 15 (r.missed + 1)
  { r with
    missed := n
    missingSince := if r.missed = 0 then some since else r.missingSince
    state := if r.state = .silent ∨ silentCycles ≤ n then .silent else .missing }

/-- The poll of unit `u` ends with a missed cycle (R114). -/
def unitMissed (u : Nat) (since : Word) (s : State) : State :=
  let r := s.unit u
  let r1 := r.missedCycle s.params.silentCycles since
  let s1 := s.setUnit u r1
  if r1.state = .silent ∧ r.state ≠ .silent then enteredSilent u (raise .plant s1) else s1

/-- PPL takes the miss of window `w` (R114). A poll with a held change, or in STOPPING, makes no further attempt, and
such a miss counts no cycle (R116, R117). -/
def pollMiss (w : Window) (s : State) : State :=
  match s.ppl.poll with
  | none => s
  | some p =>
    if !p.owns w then s
    else if p.allowed ≤ p.attempt then endPoll p (unitMissed p.unit p.firstRun s)
    else if p.heldChange || s.sst.runState != .run then endPoll p s
    else s.setPoll (some { p with attempt := p.attempt + 1, windowOpen := false })

/-! ## The poll cycle (6.4) -/

/-- A cycle starts (R110). -/
def startCycle (s : State) : State := { s with ppl := { s.ppl with running := true, cursor := 0 } }

/-- The timer's expiry is due: it has reached POLL_CYCLE in RUN (R110). -/
def State.cycleDue (s : State) : Bool := s.sst.runState == .run && decide (s.params.pollCycle ≤ s.ppl.timer)

/-- PPL takes the expiry of the cycle timer when it is due (R110). -/
def takeCycleExpiry (s : State) : State :=
  if s.cycleDue then
    let s1 : State := { s with ppl := { s.ppl with timer := 0 } }
    if s.ppl.running then { s1 with ppl := { s1.ppl with heldExpiry := true } } else startCycle s1
  else s

def execPollCycleExpiry (s : State) : Outcome := done (takeCycleExpiry s)

/-- The root of an OPEN SILENT record lies strictly above unit `u` (R111). -/
def State.underSilent (s : State) (u : Nat) : Bool :=
  s.olz.log.any fun o => o.state == .opened && o.kind == .silent && s.below u o.root

/-- A poll can be begun, or a unit passed over: the cycle is RUNNING in RUN with no poll and units left (R111). -/
def State.canBeginPoll (s : State) : Bool :=
  s.sst.runState == .run && s.ppl.running && s.ppl.poll.isNone && decide (s.ppl.cursor < 512)

/-- PPL judges the unit at the cursor (R111). The address of a pollable unit is present (R103). R111 gives the record's
first-attempt run second no value before attempt 1 is granted: the model fills in 0 (log 46). -/
def beginPoll (s : State) : State :=
  let u := s.ppl.cursor
  match (s.unit u).pollable, (s.unit u).cfg.address with
  | true, some a =>
    s.setPoll (some ⟨u, a, if s.underSilent u then 1 else s.params.pollTries, 1, false, 0, false⟩)
  | true, none => { s with ppl := { s.ppl with cursor := u + 1 } }
  | false, _ => { s with ppl := { s.ppl with cursor := u + 1 } }

def execPollBegin (s : State) : Outcome := if s.canBeginPoll then done (beginPoll s) else .next s

/-- The cycle has judged every unit (R111). -/
def State.cycleEnds (s : State) : Bool :=
  s.sst.runState == .run && s.ppl.running && s.ppl.poll.isNone && decide (512 ≤ s.ppl.cursor)

/-- The cycle ends; a held expiry starts the next (R110, R111). -/
def endCycle (s : State) : State :=
  if s.ppl.heldExpiry then startCycle { s with ppl := { s.ppl with heldExpiry := false } }
  else { s with ppl := { s.ppl with running := false } }

def execPollCycleEnd (s : State) : Outcome := if s.cycleEnds then done (endCycle s) else .next s

/-- The POLL frame of the poll in progress, when it has an attempt due (R112). -/
def pollFrame (p : Poll) : Frame := ⟨0x03#8, p.address, [BitVec.ofNat 8 p.attempt]⟩

/-- PPL takes the grant for the poll `p` (R112). -/
def sendPoll (p : Poll) (s : State) : State :=
  s.setPoll (some { p with windowOpen := true, firstRun := if p.attempt = 1 then s.tmb.run else p.firstRun })

/-- The cycle stops as the part leaves RUN (R117): the timer stands, the held expiry is cleared, and a poll without an
open window ends; with no poll left the cycle is IDLE at 0. The run state is already STOPPING. -/
def stopCycle (s : State) : State :=
  let s1 : State := { s with ppl := { s.ppl with heldExpiry := false } }
  match s1.ppl.poll with
  | none => { s1 with ppl := { s1.ppl with running := false, cursor := 0 } }
  | some p => if p.windowOpen then s1 else endPoll p s1

/-! ## Editing the plant table (6.2) -/

/-- The kind words (R103). -/
def unitKindWords : List (String × UnitKind) :=
  [("NONE", .none), ("TRUNK_AMP", .trunkAmp), ("BRIDGER", .bridger), ("LINE_EXT", .lineExt), ("SPLIT", .split)]

/-- A kind's word. -/
def unitKindWord : UnitKind → String
  | .none => "NONE"
  | .trunkAmp => "TRUNK_AMP"
  | .bridger => "BRIDGER"
  | .lineExt => "LINE_EXT"
  | .split => "SPLIT"

/-- A unit number. -/
def argUnit (t : Text) : Option Nat := argNum 0 511 t

/-- UNIT.SET's arguments, with the address and the parent its kind allows (R106). -/
def argsUnitSet : List Text → Option (Nat × UnitKind × Option Nat × Option Addr)
  | [a, b, c, d] => do
    let u ← argUnit a
    let kind ← argWordOf unitKindWords b
    let parent ← argOptional argUnit c
    let address ← argOptional argAddr d
    if address.isSome = hasTransponder kind ∧ (kind = .none → parent = none) then
      return (u, kind, parent, address)
    else none
  | _ => none

/-- An outage record is OPEN or CLEARING (R106). -/
def Outage.live (o : Outage) : Bool := o.state != .closed

/-- The new parent is defined, and under it neither the unit nor any unit below it would stand deeper than 24 units,
as a unit on its own path would (R104, R106). -/
def parentFits (s : State) (u : Nat) (kind : UnitKind) (parent : Option Nat) : Bool :=
  let s' := s.setUnit u { s.unit u with cfg := { (s.unit u).cfg with kind := kind, parent := parent } }
  parent.all (fun p => (s.unit p).defined)
    && (u :: s.unitKeys).all fun v => !(pathFrom s' 25 v).contains u || decide ((pathFrom s' 25 v).length ≤ 24)

/-- A drop that is not VACANT is fed from the unit, or a defined unit has it as its parent (R106). -/
def unitInUse (s : State) (u : Nat) : Bool :=
  (s.dropKeys.any fun d => (s.drop d).service != .vacant && (s.drop d).feed == some u)
    || s.unitKeys.any fun v => (s.unit v).defined && (s.unit v).cfg.parent == some u

/-- A defined unit other than `except` has the transponder address (R69, R106). -/
def unitHasAddress (s : State) (except : Option Nat) (a : Addr) : Bool :=
  s.unitKeys.any fun v => some v != except && (s.unit v).defined && (s.unit v).cfg.address == some a

/-- A drop that is not VACANT has the terminal address (R69, R106). -/
def dropHasAddress (s : State) (a : Addr) : Bool :=
  s.dropKeys.any fun d => (s.drop d).service != .vacant && (s.drop d).address == some a

/-- An open reply window carries the address. -/
def windowCarries (s : State) (a : Addr) : Bool := s.csc.windows.any fun w => w.address == a

/-- The first check of UNIT.SET that fails, in the order of R106, for arguments that passed the first two. -/
def unitSetRefusal (s : State) (u : Nat) (kind : UnitKind) (parent : Option Nat) (address : Option Addr) :
    Option Reason :=
  let old := (s.unit u).cfg
  if parent ≠ old.parent ∧ s.olz.log.any Outage.live then some .busy
  else if !parentFits s u kind parent then some .args
  else if kind = .none ∧ unitInUse s u then some .inUse
  else if !hasTransponder kind && s.olz.log.any (fun o => o.live && o.root == u) then some .inUse
  else if address.any fun a => unitHasAddress s (some u) a || dropHasAddress s a then some .duplicate
  else if address.any fun a => old.address != some a && windowCarries s a then some .busy
  else none

/-- The other fields of a unit by its kind before and after (the table of R107). -/
def PlantUnit.withKind (r : PlantUnit) (kind : UnitKind) (parent : Option Nat) (address : Option Addr) : PlantUnit :=
  if kind = .none then PlantUnit.blank
  else if r.cfg.kind = .none then ⟨⟨kind, parent, address, true⟩, .unknown, 0, none, false, none, false, false⟩
  else if hasTransponder kind = hasTransponder r.cfg.kind then
    { r with cfg := { r.cfg with kind := kind, parent := parent, address := address } }
  else ⟨⟨kind, parent, address, r.cfg.inService⟩,
    if r.state = .excused ∨ r.state = .outOfService then r.state else .unknown, 0, none, false, none, false, false⟩

/-- An accepted UNIT.SET (R107, R116). -/
def unitSetEffect (u : Nat) (kind : UnitKind) (parent : Option Nat) (address : Option Addr) (s : State) : State :=
  let old := s.unit u
  let s1 := s.setUnit u (old.withKind kind parent address)
  match s1.pollOf u with
  | none => s1
  | some p => if kind ≠ old.cfg.kind ∨ address ≠ old.cfg.address then endPoll p s1 else s1

/-- UNIT.SET (R106, R107). -/
def unitSetVerb (args : List Text) (s : State) : State × Reply :=
  if s.saving then refuse .busy s
  else match argsUnitSet args with
    | none => refuse .args s
    | some (u, kind, parent, address) =>
      match unitSetRefusal s u kind parent address with
      | some r => refuse r s
      | none => accept (unitSetEffect u kind parent address s)

def execUnitSet (l : Lane) (s : State) : Outcome := dispatch .unitSet l unitSetVerb s

/-- Writes the in-service flag of unit `u`. -/
def setInService (b : Bool) (u : Nat) (s : State) : State :=
  s.setUnit u { s.unit u with cfg := { (s.unit u).cfg with inService := b } }

/-- An accepted UNIT.SERVICE (R108, R116; log 24 for a unit whose state change is still held). -/
def unitServiceEffect (u : Nat) (on : Bool) (s : State) : State :=
  let r := s.unit u
  if r.cfg.inService = on then s
  else
    let s1 := setInService on u s
    match s1.pollOf u with
    | some p => if on then s1 else holdChange p s1
    | none =>
      if on then s1.setUnit u ((s1.unit u).settledTo (if s1.underDeclared u then .excused else .unknown))
      else leaveService u s1

/-- UNIT.SERVICE (R108). -/
def unitServiceVerb (args : List Text) (s : State) : State × Reply :=
  if s.saving then refuse .busy s
  else match args with
    | [a, b] => match argUnit a, argFlag b with
      | some u, some on => if (s.unit u).defined then accept (unitServiceEffect u on s) else refuse .args s
      | _, _ => refuse .args s
    | _ => refuse .args s

def execUnitService (l : Lane) (s : State) : Outcome := dispatch .unitService l unitServiceVerb s

/-! ## Reading the plant (R118) -/

/-- The state words (R103). -/
def unitStateWords : List (String × UnitState) :=
  [("UNKNOWN", .unknown), ("ANSWERING", .answering), ("MISSING", .missing), ("SILENT", .silent),
   ("EXCUSED", .excused), ("OUT_OF_SERVICE", .outOfService)]

/-- A unit state's word. -/
def UnitState.word : UnitState → String
  | .unknown => "UNKNOWN"
  | .answering => "ANSWERING"
  | .missing => "MISSING"
  | .silent => "SILENT"
  | .excused => "EXCUSED"
  | .outOfService => "OUT_OF_SERVICE"

/-- A signed number in decimal (R118; log 14). -/
def fInt (i : Int) : Field := if i < 0 then [.word "-", .num i.natAbs] else [.num i.toNat]

/-- The conditions letters: P, L, PL or `-` (R118). -/
def fConditions (r : PlantUnit) : Field :=
  if !r.power && !r.level then fDash
  else (if r.power then [.word "P"] else []) ++ (if r.level then [.word "L"] else [])

/-- UNIT.READ's reply fields (R118). -/
def unitFields (r : PlantUnit) : List Field :=
  if !r.defined then [fWord "NONE"]
  else
    [fWord (unitKindWord r.cfg.kind), fOpt fNum r.cfg.parent, fOpt (fun a => [.hex6 a]) r.cfg.address,
     fFlag r.cfg.inService, fWord r.state.word, fNum r.missed, fOpt fTime r.missingSince, fFlag r.unlogged]
    ++ (match r.last with
        | none => [fDash]
        | some st => [fNum st.supply, fNum st.levelClass, fInt st.level])
    ++ [fConditions r]

/-- UNIT.READ (R118). -/
def unitReadVerb (args : List Text) (s : State) : Reply :=
  match args with
  | [a] => match argUnit a with
    | none => .err .args
    | some u => .ok (unitFields (s.unit u))
  | _ => .err .args

def execUnitRead (l : Lane) (s : State) : Outcome := answer .unitRead l unitReadVerb s

/-- The units a UNIT.LIST word names: a state, or COND for a unit with a condition (R118). -/
def argUnitFilter (t : Text) : Option (PlantUnit → Bool) :=
  if t = ascii "COND" then some fun r => r.defined && (r.power || r.level)
  else (argWordOf unitStateWords t).map fun st r => r.defined && r.state == st

/-- UNIT.LIST (R118). Of no units there is no field: the model's choice (log 14). -/
def unitListVerb (args : List Text) (s : State) : Reply :=
  match args with
  | [a, b] => match argUnitFilter a, argUnit b with
    | some p, some start =>
      let (found, cont) := listFrom (fun u => p (s.unit u)) s.unitKeys start 511
      .ok (found.map fNum ++ [fOpt fNum cont])
    | _, _ => .err .args
  | _ => .err .args

def execUnitList (l : Lane) (s : State) : Outcome := answer .unitList l unitListVerb s

/-- POLL.STATUS (R118). -/
def pollStatusVerb (args : List Text) (s : State) : Reply :=
  match args with
  | [] => .ok ([fWord (if s.ppl.running then "R" else "I"), fNum s.ppl.cursor, fFlag s.ppl.heldExpiry,
      fNum s.ppl.timer, fNum s.params.pollCycle]
      ++ match s.ppl.poll with
        | none => [fDash]
        | some p => [fNum p.unit, fNum p.attempt, fNum p.allowed, fFlag p.windowOpen, fFlag p.heldChange])
  | _ => .err .args

def execPollStatus (l : Lane) (s : State) : Outcome := answer .pollStatus l pollStatusVerb s

/-! ## Declared outages (6.3, 7.3) -/

/-- PPL excuses unit `u` (R109): the unit under poll takes the change as R116 gives. -/
def excuseUnit (u : Nat) (s : State) : State :=
  match s.pollOf u with
  | some p => holdChange p s
  | none => s.setUnit u ((s.unit u).settledTo .excused)

/-- PPL excuses the units at or below `r` that are in service (R109). -/
def excuseBelow (r : Nat) (s : State) : State :=
  (s.unitKeys.filter fun u => (s.unit u).defined && (s.unit u).cfg.inService && s.atOrBelow u r).foldl
    (fun s u => excuseUnit u s) s

/-- PPL returns the EXCUSED units at or below `r` to UNKNOWN, but for those under another OPEN DECLARED root (R109). -/
def returnBelow (r : Nat) (s : State) : State :=
  (s.unitKeys.filter fun u => (s.unit u).state == .excused && s.atOrBelow u r && !s.underDeclared u).foldl
    (fun s u => s.setUnit u ((s.unit u).settledTo .unknown)) s

/-- Another root stands in the way of a declaration at `u` (R125). -/
def declareOverlaps (s : State) (u : Nat) : Bool :=
  s.olz.log.any fun o => o.state == .opened && (s.atOrBelow o.root u || (o.kind == .declared && s.atOrBelow u o.root))

/-- An accepted OUTAGE.DECLARE, with the record's number (R125). -/
def outageDeclareEffect (u : Nat) (credit : Bool) (s : State) : State × Nat :=
  let (s1, n) := openRecord .declared credit u s.tmb.run s.stamp s
  (excuseBelow u s1, n)

/-- OUTAGE.DECLARE (R125). -/
def outageDeclareVerb (args : List Text) (s : State) : State × Reply :=
  if s.saving then refuse .busy s
  else match args with
    | [a, b] => match argUnit a, argFlag b with
      | some u, some credit =>
        if !hasTransponder (s.unit u).cfg.kind then refuse .args s
        else if declareOverlaps s u then refuse .overlap s
        else if !s.hasRoom then refuse .full s
        else ((outageDeclareEffect u credit s).1, .ok [fNum (outageDeclareEffect u credit s).2])
      | _, _ => refuse .args s
    | _ => refuse .args s

def execOutageDeclare (l : Lane) (s : State) : Outcome := dispatch .outageDeclare l outageDeclareVerb s

/-- An accepted OUTAGE.END of record `o` (R126). -/
def outageEndEffect (o : Outage) (s : State) : State := returnBelow o.root (clearRecord o.number .ended [] false s)

/-- OUTAGE.END (R126). -/
def outageEndVerb (args : List Text) (s : State) : State × Reply :=
  if s.saving then refuse .busy s
  else match args with
    | [a] => match (argOutage a).bind s.record with
      | none => refuse .args s
      | some o =>
        if o.kind ≠ .declared then refuse .args s
        else if o.state ≠ .opened then refuse .state s
        else accept (outageEndEffect o s)
    | _ => refuse .args s

def execOutageEnd (l : Lane) (s : State) : Outcome := dispatch .outageEnd l outageEndVerb s

end Sys2Proof.Machine
end

