-- ==== Sys2Proof/Machine/Timebase.lean ====
section
/-! DEFINITION. The Timebase (chapter 9): the second advance, TIME.SET and TIME.STATUS, the reference monitor. -/

namespace Sys2Proof.Machine

/-- Writes the Timebase. -/
def State.setTmb (t : Tmb) (s : State) : State := { s with tmb := t }

/-! ## Seconds (R154) -/

/-- A second advance is due: the phase has reached 250 and was set to 0 (R154; log 3). -/
def State.secondDue (s : State) : Bool := s.tmb.advanceDue

/-- What the second now past still owes the blocks that count in seconds: the override's expiry and ALERT due, and the
cycle timer's expiry (R18, R19, R110; log 3, 39). -/
def settleSecond (s : State) : State := takeCycleExpiry (takeAlert (takeExpiry s))

/-- Both counts of seconds rise by 1 (R154). -/
def countSecond (s : State) : State :=
  s.setTmb { s.tmb with advanceDue := false, run := s.tmb.run + 1, station := s.tmb.station + 1 }

/-- PPL's cycle timer rises by 1 in RUN (R110). -/
def countCycle (s : State) : State :=
  if s.sst.runState = .run then { s with ppl := { s.ppl with timer := s.ppl.timer + 1 } } else s

/-- The second advance (R154): LUR evaluates event states while time is SET, PPL counts. -/
def secondAdvance (s : State) : State := countCycle (evaluateIfSet (countSecond (settleSecond s)))

def execSecondAdvance (s : State) : Outcome := if s.secondDue then done (secondAdvance s) else .next s

/-! ## Setting and reading (R155, R161) -/

/-- An accepted TIME.SET (R155): station time, SET, certain; then LUR evaluates (R10). -/
def timeSetEffect (t : Word) (s : State) : State :=
  evaluateEvents (s.setTmb { s.tmb with station := t, timeSet := true, uncertain := false })

/-- TIME.SET (R155). -/
def timeSetVerb (args : List Text) (s : State) : State × Reply :=
  if s.saving then refuse .busy s
  else match args with
    | [a] => match argWord a with
      | some t => accept (timeSetEffect t s)
      | none => refuse .args s
    | _ => refuse .args s

def execTimeSet (l : Lane) (s : State) : Outcome := dispatch .timeSet l timeSetVerb s

/-- The time state's letter (R161, R173). -/
def fTimeState (s : State) : Field := fWord (if s.tmb.timeSet then "S" else "U")

/-- The clock selection's word (R161, R173). -/
def fClock (s : State) : Field := fWord (match s.tmb.clock with | .reference => "REF" | .internal => "INT")

/-- TIME.STATUS (R161). -/
def timeStatusVerb (args : List Text) (s : State) : Reply :=
  match args with
  | [] => .ok [fTime s.tmb.station, fTimeState s, fFlag s.tmb.uncertain, fTime s.tmb.run, fNum s.tmb.phase, fClock s,
      fNum s.tmb.goodRun, if s.tmb.startup then fWord "W" else fDash]
  | _ => .err .args

def execTimeStatus (l : Lane) (s : State) : Outcome := answer .timeStatus l timeStatusVerb s

/-! ## The reference monitor (9.4) -/

/-- REFERENCE_EDGE: a rising edge sets the latch (R157). -/
def execReferenceEdge (s : State) : Outcome := .next (s.setTmb { s.tmb with edge := true })

/-- The start-up window has taken its 1000 samples (R160). -/
def Tmb.windowDue (t : Tmb) : Bool := t.startup && decide (1000 ≤ t.startupSamples)

/-- The start-up window closes: REFERENCE when every sample was good (R160). -/
def Tmb.closeWindow (t : Tmb) : Tmb :=
  { t with startup := false, clock := if 1000 ≤ t.goodRun then .reference else .internal }

/-- STARTUP_WINDOW_CLOSE (R160). -/
def closeWindow (s : State) : State := if s.tmb.windowDue then s.setTmb s.tmb.closeWindow else s

def execStartupWindowClose (s : State) : Outcome := .next (closeWindow s)

/-- Good run has reached 1000 on INTERNAL, after the start-up window (R158). -/
def Tmb.returnDue (t : Tmb) : Bool := !t.startup && t.clock == .internal && decide (1000 ≤ t.goodRun)

/-- The return to the reference, with TIMEBASE attention (R158). -/
def referenceReturn (s : State) : State :=
  if s.tmb.returnDue then raise .timebase (s.setTmb { s.tmb with clock := .reference }) else s

def execReferenceReturn (s : State) : Outcome := .next (referenceReturn s)

/-- Good run after a sample on INTERNAL (R158, R160). -/
def goodRunAfter (good : Bool) (n : Nat) : Nat := if good then min 1000 (n + 1) else 0

/-- A sample on REFERENCE (R157): a bad one is a reference loss. -/
def sampleReference (s : State) : State :=
  if s.tmb.edge then s.setTmb { s.tmb with edge := false }
  else raise .timebase (s.setTmb { s.tmb with clock := .internal, goodRun := 0, uncertain := true })

/-- A sample on INTERNAL (R158, R160); the start-up window counts it. -/
def sampleInternal (s : State) : State :=
  s.setTmb { s.tmb with
    edge := false
    goodRun := goodRunAfter s.tmb.edge s.tmb.goodRun
    startupSamples := if s.tmb.startup then s.tmb.startupSamples + 1 else s.tmb.startupSamples }

/-- TMB takes one monitor sample (R157). -/
def takeSample (s : State) : State :=
  match s.tmb.clock with
  | .reference => sampleReference s
  | .internal => sampleInternal s

/-- MONITOR_SAMPLE: what the samples so far still owe comes first (log 3), then the sample (R157, R158, R160). -/
def execMonitorSample (s : State) : Outcome := .next (takeSample (referenceReturn (closeWindow s)))

end Sys2Proof.Machine
end

