-- ==== Sys2Proof/Machine/Carrier.lean ====
section
/-! DEFINITION. The Carrier Scheduler and the Upstream Receiver (chapter 3): the slot boundary with its closings and its
grant, upstream frames and strays, STRAY.* and CARRIER.STATUS. -/

namespace Sys2Proof.Machine

/-! ## Windows -/

/-- Writes the open window list. -/
def State.setWindows (w : List Window) (s : State) : State := { s with csc := { s.csc with windows := w } }

/-- CSC opens a window at the grant of slot `n` (R45). -/
def openWindow (a : Addr) (k : WindowKind) (owner : Nat) (n : Word) (s : State) : State :=
  s.setWindows (s.csc.windows ++ [⟨a, k, owner, n, n + 3⟩])

/-- A window may be opened to address `a` (R43, ranks 3 to 5). -/
def mayOpen (s : State) (a : Addr) : Bool := decide (s.csc.windows.length < 3) && !windowCarries s a

/-- CSC reports an empty window list in STOPPING, and the part enters STANDBY (R53, R175). -/
def stoppingEnd (s : State) : State :=
  if s.sst.runState = .stopping ∧ s.csc.windows = [] then s.setRunState .standby else s

/-- A miss is handed to the window's owner (R46). -/
def handMiss (w : Window) (s : State) : State :=
  match w.kind with
  | .auth => authMiss w.owner s
  | .refresh => refreshMiss w.owner s
  | .poll => pollMiss w s

/-- The windows due to close at the boundary that ends the slot in progress (R46). -/
def State.dueWindows (s : State) : List Window := s.csc.windows.filter fun w => some w.closing == s.csc.slotNumber

/-- CSC closes the windows due as missed, in opening order (R46). -/
def closeWindows (s : State) : State :=
  let s1 := s.setWindows (s.csc.windows.filter fun w => some w.closing != s.csc.slotNumber)
  s.dueWindows.foldl (fun s w => handMiss w s) s1

/-! ## The grant (R43) -/

/-- A sender's place among the five, as the argument of the free value (Config.lean). -/
def Sender.index : Sender → Nat
  | .alert => 0
  | .carousel => 1
  | .authorize => 2
  | .poll => 3
  | .refresh => 4

/-- The readiness bit of a sender's mark. -/
def Marks.ready (m : Marks) : Sender → Bool
  | .alert => m.alert
  | .carousel => m.carousel
  | .authorize => m.authorize.isSome
  | .poll => m.poll.isSome
  | .refresh => m.refresh.isSome

/-- The readiness CSC holds at the grant: a change made by the closings of the same boundary may or may not have
reached it (R43; log 6). -/
def heldReadiness (draw : Nat) (before after : Marks) (x : Sender) : Bool :=
  if before.ready x = after.ready x then after.ready x
  else if Config.markReached draw x.index then after.ready x else before.ready x

/-- AEN builds the AUTHORIZE frame of its head and CSC opens the window (R67). -/
def grantAuthorize (n : Word) (s : State) : State × Option Frame :=
  match s.aen.queue with
  | [] => (s, none)
  | e :: _ =>
    match (s.drop e.drop).address with
    | none => (s, none)
    | some a =>
      if mayOpen s a then
        let s1 := sendAuthorize e.drop s
        (openWindow a .auth e.drop n s1, some ⟨0x01#8, a, authorizationOf s1 (s1.drop e.drop)⟩)
      else (s, none)

/-- PPL builds the POLL frame of the attempt due and CSC opens the window (R112). -/
def grantPoll (n : Word) (s : State) : State × Option Frame :=
  match s.ppl.poll with
  | none => (s, none)
  | some p =>
    if !p.windowOpen && mayOpen s p.address then
      (openWindow p.address .poll p.unit n (sendPoll p s), some (pollFrame p))
    else (s, none)

/-- RSW takes its candidate and CSC opens the window; with no eligible drop the request is consumed unsent (R91). -/
def grantRefresh (n : Word) (s : State) : State × Option Frame :=
  if !s.rsw.request then (s, none)
  else match s.candidate with
    | none =>
      (if s.csc.windows.length < 3 then { s with rsw := { s.rsw with request := false } } else s, none)
    | some d =>
      match (s.drop d).address with
      | none => (s, none)
      | some a =>
        if mayOpen s a then
          let s1 := sendRefresh d s
          (openWindow a .refresh d n s1, some ⟨0x02#8, a, authorizationOf s1 (s1.drop d)⟩)
        else (s, none)

/-- The owner of sender `x` builds its frame for slot `n`, if it has one and may be granted (R43). -/
def grantTo (n : Word) (x : Sender) (s : State) : State × Option Frame :=
  match x with
  | .alert =>
    if s.owedMarks.alert then (s.setOverride { s.lur.override with ready := false }, some (alertFrame s)) else (s, none)
  | .carousel =>
    match s.nextEntry with
    | some e => (afterSending e s, some (carouselFrame s e))
    | none => (s, none)
  | .authorize => grantAuthorize n s
  | .poll => grantPoll n s
  | .refresh => grantRefresh n s

/-- The grant goes to the first sender of a list of ranks that is ready and has a frame (R43). -/
def grantFrom (ready : Sender → Bool) (n : Word) : List Sender → State → State × Option (Sender × Frame)
  | [], s => (s, none)
  | x :: xs, s =>
    if ready x then
      match grantTo n x s with
      | (s1, some f) => (s1, some (x, f))
      | (s1, none) => grantFrom ready n xs s1
    else grantFrom ready n xs s

/-- The ranks of R43, the carousel promoted when the floor count has reached CAROUSEL_FLOOR (R44). -/
def State.ranks (s : State) : List Sender :=
  [.alert] ++ (if s.params.carouselFloor ≤ s.csc.floor then [.carousel] else [])
    ++ [.authorize, .poll, .refresh, .carousel]

/-- The floor count after a grant (R44). -/
def floorAfter (g : Option Sender) (n : Nat) : Nat := if g = some .carousel then 0 else min 250 (n + 1)

/-- CSC writes what the slot `n` carries. -/
def beginSlot (n : Word) (g : Option Sender) (f : Frame) (s : State) : State :=
  { s with csc := { s.csc with slotNumber := some n, granted := g, frame := some f } }

/-- The grant of slot `n` in RUN (R43, R44). `before` holds the marks as they stood before the closings. -/
def grantSlot (before : Marks) (n : Word) (s : State) : State :=
  let ready := heldReadiness s.draws before s.owedMarks
  let (s1, g) := grantFrom ready n s.ranks { s with draws := s.draws + 1 }
  let s2 : State := { s1 with csc := { s1.csc with floor := floorAfter (g.map Prod.fst) s1.csc.floor } }
  match g with
  | some (x, f) => beginSlot n (some x) f s2
  | none => beginSlot n none fillerFrame s2

/-- The number of the slot that begins (R40). -/
def State.nextSlot (s : State) : Word :=
  match s.csc.slotNumber with
  | none => 0
  | some n => n + 1

/-- The slot that begins is granted in RUN, and carries FILLER in every other run state (R41). -/
def fillSlot (before : Marks) (n : Word) (s : State) : State :=
  if s.sst.runState = .run then grantSlot before n s else beginSlot n none fillerFrame s

/-- The Timebase after one boundary more (R154): a phase that reaches 250 is set to 0, and a second advance is due
(log 3). -/
def Tmb.counted (t : Tmb) : Tmb :=
  if 250 ≤ t.phase + 1 then { t with phase := 0, advanceDue := true } else { t with phase := t.phase + 1 }

/-- TMB counts the boundary (R154). -/
def countPhase (s : State) : State := s.setTmb s.tmb.counted

/-- What falls before the boundary's own work: a second advance or a second's expiry not yet taken (log 3). -/
def settleBoundary (s : State) : State := settleSecond (if s.secondDue then secondAdvance s else s)

/-- The boundary's work (R40, R43, R46, R88, R154): the refresh count, the closings, the end of STOPPING, the slot that
begins, the phase. -/
def slotBoundary (s : State) : State :=
  let s1 := boundaryCount s
  let before := s1.owedMarks
  let n := s1.nextSlot
  countPhase (fillSlot before n (stoppingEnd (closeWindows s1)))

def execSlotBoundary (s : State) : Outcome := done (slotBoundary (settleBoundary s))

/-! ## Upstream frames (R47 to R49, R51) -/

/-- URX captures a stray while ARMED, with STRAY attention (R51). -/
def captureStray (c : StrayCause) (f : Frame) (s : State) : State :=
  match s.urx.stray with
  | some _ => s
  | none => raise .stray { s with urx := ⟨some ⟨c, f.address, f.kind, s.stamp, s.tmb.run⟩⟩ }

/-- The window that carries an address (R48). -/
def State.windowOf (s : State) (a : Addr) : Option Window := s.csc.windows.find? fun w => w.address == a

/-- The kinds of a frame and a window match (R48). -/
def kindsMatch : Upstream → WindowKind → Bool
  | .ack _, .auth => true
  | .ack _, .refresh => true
  | .ack _, .poll => false
  | .status _, .auth => false
  | .status _, .refresh => false
  | .status _, .poll => true

/-- An answer closes its window and goes to the window's owner (R49). -/
def takeAnswer (w : Window) (u : Upstream) (s : State) : State :=
  let s1 := s.setWindows (s.csc.windows.filter fun x => x.address != w.address)
  match w.kind, u with
  | .auth, .ack p => authAck w.owner p s1
  | .refresh, .ack p => refreshAck w.owner p s1
  | .poll, .status st => pollAnswer w st s1
  | .auth, .status _ => s
  | .refresh, .status _ => s
  | .poll, .ack _ => s

/-- URX matches a well-formed frame (the table of R48). A frame of the wrong kind for a window opened in the slot in
progress meets two rows of the table, for which R48 gives no order: EARLY is the model's choice (log 45). -/
def matchFrame (f : Frame) (u : Upstream) (s : State) : State :=
  match s.windowOf f.address with
  | none => captureStray .noWindow f s
  | some w =>
    if some w.frameSlot = s.csc.slotNumber then captureStray .early f s
    else if !kindsMatch u w.kind then captureStray .kind f s
    else stoppingEnd (takeAnswer w u s)

/-- URX judges an intact frame (R47). -/
def judgeFrame (f : Frame) (s : State) : State :=
  match frameForm f with
  | .error c => captureStray c f s
  | .ok u => matchFrame f u s

/-- UPSTREAM_FRAME (R47). -/
def execUpstreamFrame (bytes : List Byte) (s : State) : Outcome :=
  if s.sst.runState = .loading then .next s
  else match readFrame bytes with
    | none => .next s
    | some f => done (judgeFrame f s)

/-! ## Verbs (R52, R55) -/

/-- A cause's word (R51). -/
def StrayCause.word : StrayCause → String
  | .noWindow => "NO_WINDOW"
  | .early => "EARLY"
  | .kind => "KIND"
  | .form => "FORM"
  | .foreign => "FOREIGN"

/-- STRAY.READ (R52). -/
def strayReadVerb (args : List Text) (s : State) : Reply :=
  match args with
  | [] => match s.urx.stray with
    | none => .ok [fWord "ARMED"]
    | some x => .ok [fWord "CAPTURED", fWord x.cause.word, [.hex6 x.address], [.hex2 x.kind], fOpt fTime x.station,
        fTime x.run]
  | _ => .err .args

def execStrayRead (l : Lane) (s : State) : Outcome := answer .strayRead l strayReadVerb s

/-- STRAY.REARM (R52). -/
def strayRearmVerb (args : List Text) (s : State) : State × Reply :=
  match args with
  | [] => accept { s with urx := ⟨none⟩ }
  | _ => refuse .args s

def execStrayRearm (l : Lane) (s : State) : Outcome := dispatch .strayRearm l strayRearmVerb s

/-- A window kind's word (R45). -/
def WindowKind.word : WindowKind → String
  | .auth => "AUTH"
  | .refresh => "REFRESH"
  | .poll => "POLL"

/-- The slots left in a window: 3 in the frame's own slot, then 3, 2, 1 (R55). -/
def slotsLeft (s : State) (w : Window) : Nat :=
  min 3 ((w.closing - s.csc.slotNumber.getD 0).toNat + 1)

/-- A sender's letter (R55). -/
def Sender.letter : Sender → String
  | .alert => "A"
  | .carousel => "C"
  | .authorize => "Z"
  | .poll => "P"
  | .refresh => "F"

/-- The letters of the marks that are set, in rank order (R55). -/
def marksField (m : Marks) : Field :=
  let set := [Sender.alert, .carousel, .authorize, .poll, .refresh].filter m.ready
  if set.isEmpty then fDash else set.map fun x => .word x.letter

/-- CARRIER.STATUS (R55). -/
def carrierStatusVerb (args : List Text) (s : State) : Reply :=
  match args with
  | [] => .ok (
      (if s.csc.windows.isEmpty then [fDash]
        else (s.csc.windows.map fun w =>
          [[Piece.hex6 w.address], fWord w.kind.word, fNum w.owner, fNum (slotsLeft s w)]).flatten)
      ++ [fNum s.csc.floor, marksField s.csc.marks, fOpt (fun x => fWord x.letter) s.csc.granted])
  | _ => .err .args

def execCarrierStatus (l : Lane) (s : State) : Outcome := answer .carrierStatus l carrierStatusVerb s

end Sys2Proof.Machine
end

