-- ==== Sys2Proof/Machine/Drops.lean ====
section
/-! DEFINITION. The Drop Table's verbs (4.2, 4.4): PROTECT.* and DROP.*. -/

namespace Sys2Proof.Machine

/-! ## Protection blocks (R64) -/

/-- Writes a protection flag. -/
def setGuard (on : Bool) (b : Nat) (s : State) : State :=
  { s with dtb := { s.dtb with guards := Table.set (fun _ => false) s.dtb.guards b on } }

/-- PROTECT.SET and PROTECT.CLEAR (R64). -/
def guardVerb (on : Bool) (args : List Text) (s : State) : State × Reply :=
  if s.saving then refuse .busy s
  else match args with
    | [a] => match argNum 0 7 a with
      | some b => accept (setGuard on b s)
      | none => refuse .args s
    | _ => refuse .args s

def execProtectSet (l : Lane) (s : State) : Outcome := dispatch .protectSet l (guardVerb true) s

def execProtectClear (l : Lane) (s : State) : Outcome := dispatch .protectClear l (guardVerb false) s

/-- PROTECT.READ: eight digits (R64). -/
def protectReadVerb (args : List Text) (s : State) : Reply :=
  match args with
  | [] => .ok [((List.range 8).map fun b => fFlag (s.guarded b)).flatten]
  | _ => .err .args

def execProtectRead (l : Lane) (s : State) : Outcome := answer .protectRead l protectReadVerb s

/-! ## Service verbs (4.4) -/

/-- A drop number (R68). -/
def argDrop (t : Text) : Option Nat := argNum 0 2047 t

/-- The words of the service states (R61). -/
def serviceWords : List (String × Service) :=
  [("VACANT", .vacant), ("ACTIVE", .active), ("SUSPENDED", .suspended), ("CLOSING", .closing)]

/-- A service state's word. -/
def serviceWord : Service → String
  | .vacant => "VACANT"
  | .active => "ACTIVE"
  | .suspended => "SUSPENDED"
  | .closing => "CLOSING"

/-- The words of the link states (R61). -/
def linkWords : List (String × Link) :=
  [("SETTLED", .settled), ("QUEUED", .queued), ("AWAITING", .awaiting), ("PARKED", .parked),
   ("UNCONFIRMED", .unconfirmed)]

/-- A link state's word. -/
def Link.word : Link → String
  | .settled => "SETTLED"
  | .queued => "QUEUED"
  | .awaiting => "AWAITING"
  | .parked => "PARKED"
  | .unconfirmed => "UNCONFIRMED"

/-- The reply to an accepted service verb: the service and link states after it (R68). -/
def serviceReply (d : Nat) (s : State) : State × Reply :=
  (s, .ok [fWord (serviceWord (s.drop d).service), fOpt (fun l => fWord l.word) (s.drop d).link])

/-- The drop is ACTIVE or SUSPENDED. -/
def Drop.served (r : Drop) : Bool := r.service == .active || r.service == .suspended

/-- The link state is SETTLED or UNCONFIRMED. -/
def Drop.free (r : Drop) : Bool := r.link == some .settled || r.link == some .unconfirmed

/-- A HOST request for the drop would append an entry (R66, R70 to R73, R76). -/
def Drop.needsPlace (r : Drop) : Bool := r.free && r.outage.isNone

/-- The queue has no place for a HOST request (R66). -/
def State.queueFull (s : State) : Bool := decide (64 ≤ s.aen.queue.length)

/-- Journal free does not exceed the reserve (R142). -/
def State.journalShut (s : State) : Bool := decide (s.free ≤ reserve)

/-- An open AUTH or REFRESH window names the drop (R69). -/
def windowNames (s : State) (d : Nat) : Bool := s.csc.windows.any fun w => w.kind != .poll && w.owner == d

/-- DROP.CONNECT's arguments (R69). -/
def argsConnect : List Text → Option (Nat × Addr × Word × Nat × TierSet)
  | [a, b, c, d, e] => do
    let n ← argDrop a
    let address ← argAddr b
    let account ← argWord c
    let unit ← argUnit d
    let tiers ← argTiers e
    return (n, address, account, unit, tiers)
  | _ => none

/-- The first check of DROP.CONNECT that fails (R69). -/
def connectRefusal (s : State) (d : Nat) (a : Addr) (u : Nat) : Option Reason :=
  if (s.drop d).service ≠ .vacant then some .state
  else if 0 < (s.drop d).pending then some .pendingCredit
  else if !(s.unit u).defined then some .args
  else if dropHasAddress s a || unitHasAddress s none a then some .duplicate
  else if windowCarries s a || windowNames s d then some .busy
  else if s.journalShut then some .journal
  else if s.queueFull && (s.properAt u).isNone then some .full
  else none

/-- The record of a new drop (R69, steps 1 and 2; log 34 for its link state before its first request). -/
def Drop.connected (a : Addr) (account : Word) (u : Nat) (t : TierSet) (run : Word) : Drop :=
  { Drop.blank with
    service := .active, address := some a, account := some account, tiers := t, feed := some u,
    link := some .unconfirmed, lastEnd := some run }

/-- An accepted DROP.CONNECT (R69). -/
def connectEffect (d : Nat) (a : Addr) (account : Word) (u : Nat) (t : TierSet) (s : State) : State :=
  let s1 := s.setDrop d (Drop.connected a account u t s.tmb.run)
  let s2 := writeRecord (.connect d (some account) (some a) t) s1
  let s3 := transition d (s2.proper d) s2
  let r := s3.drop d
  if r.outage.isSome then s3.setDrop d { r with link := some .parked } else request .host false d s3

/-- DROP.CONNECT (R68, R69). -/
def dropConnectVerb (args : List Text) (s : State) : State × Reply :=
  if s.saving then refuse .busy s
  else match argsConnect args with
    | none => refuse .args s
    | some (d, a, account, u, t) =>
      match connectRefusal s d a u with
      | some r => refuse r s
      | none => serviceReply d (connectEffect d a account u t s)

def execDropConnect (l : Lane) (s : State) : Outcome := dispatch .dropConnect l dropConnectVerb s

/-- The first check of DROP.TIERS that fails (R70). -/
def tiersRefusal (s : State) (d : Nat) : Option Reason :=
  let r := s.drop d
  if !r.served then some .state
  else if s.journalShut then some .journal
  else if r.service == .active && r.needsPlace && s.queueFull then some .full
  else none

/-- An accepted DROP.TIERS (R70). -/
def tiersEffect (d : Nat) (t : TierSet) (s : State) : State :=
  let r := s.drop d
  let s1 := writeRecord (.tiers d r.account r.tiers t) (s.setDrop d { r with tiers := t })
  if r.service = .active then request .host false d s1 else s1

/-- DROP.TIERS (R68, R70). -/
def dropTiersVerb (args : List Text) (s : State) : State × Reply :=
  if s.saving then refuse .busy s
  else match args with
    | [a, b] => match argDrop a, argTiers b with
      | some d, some t => match tiersRefusal s d with
        | some r => refuse r s
        | none => serviceReply d (tiersEffect d t s)
      | _, _ => refuse .args s
    | _ => refuse .args s

def execDropTiers (l : Lane) (s : State) : Outcome := dispatch .dropTiers l dropTiersVerb s

/-- A service verb that takes a drop number alone: BUSY and ARGS (R68), the verb's own checks, its effect. -/
def oneDropVerb (refusal : State → Nat → Option Reason) (effect : Nat → State → State) (args : List Text) (s : State) :
    State × Reply :=
  if s.saving then refuse .busy s
  else match args with
    | [a] => match argDrop a with
      | none => refuse .args s
      | some d => match refusal s d with
        | some r => refuse r s
        | none => serviceReply d (effect d s)
    | _ => refuse .args s

/-- Writes the service state of drop `d`. -/
def setService (v : Service) (d : Nat) (s : State) : State := s.setDrop d { s.drop d with service := v }

/-- The first check of DROP.SUSPEND that fails (R71). -/
def suspendRefusal (s : State) (d : Nat) : Option Reason :=
  let r := s.drop d
  if r.service ≠ .active then some .state
  else if s.dropGuarded d then some .guarded
  else if s.journalShut then some .journal
  else if r.needsPlace && s.queueFull then some .full
  else none

/-- An accepted DROP.SUSPEND (R71). -/
def suspendEffect (d : Nat) (s : State) : State :=
  let s1 := writeRecord (.suspend d (s.drop d).account) (setService .suspended d s)
  request .host false d (endEpisode d s1)

def execDropSuspend (l : Lane) (s : State) : Outcome :=
  dispatch .dropSuspend l (oneDropVerb suspendRefusal suspendEffect) s

/-- The first check of DROP.RESUME that fails (R72). -/
def resumeRefusal (s : State) (d : Nat) : Option Reason :=
  let r := s.drop d
  if r.service ≠ .suspended then some .state
  else if s.journalShut then some .journal
  else if (r.needsPlace || ((r.free || r.link == some .parked) && (s.proper d).isNone)) && s.queueFull then some .full
  else none

/-- The accrual of a resumed drop that carries a crediting outage starts now (R72). -/
def startAccrual (d : Nat) (s : State) : State :=
  let r := s.drop d
  if r.outage.any s.credits then s.setDrop d { r with accrual := some s.tmb.run } else s

/-- An accepted DROP.RESUME: the verb's changes, its request, then the evaluation of R134 (R72; log 26). When that brings
the drop into a crediting record, R131 starts its accrual, at the later of the record's open run second and the last
outage end, also before the resumption from which R72 counts: the model's choice (log 49). -/
def resumeEffect (d : Nat) (s : State) : State :=
  let s1 := writeRecord (.resume d (s.drop d).account) (setService .active d s)
  evaluateDrop d (request .host false d (startAccrual d s1))

def execDropResume (l : Lane) (s : State) : Outcome :=
  dispatch .dropResume l (oneDropVerb resumeRefusal resumeEffect) s

/-- The first check of DROP.DISCONNECT that fails (R73). -/
def disconnectRefusal (s : State) (d : Nat) : Option Reason :=
  let r := s.drop d
  if !r.served then some .state
  else if s.dropGuarded d then some .guarded
  else if s.journalShut then some .journal
  else if r.needsPlace && s.queueFull then some .full
  else none

/-- An accepted DROP.DISCONNECT (R73). -/
def disconnectEffect (d : Nat) (s : State) : State :=
  let s1 := endEpisode d (writeRecord (.disconnect d (s.drop d).account) s)
  if (s1.drop d).outage.isSome then vacate d s1 else request .host false d (setService .closing d s1)

def execDropDisconnect (l : Lane) (s : State) : Outcome :=
  dispatch .dropDisconnect l (oneDropVerb disconnectRefusal disconnectEffect) s

/-- The first check of DROP.REASSIGN that fails (R75). -/
def reassignRefusal (s : State) (d u : Nat) : Option Reason :=
  let r := s.drop d
  if r.service = .vacant then some .state
  else if !(s.unit u).defined then some .args
  else if r.link == some .parked && (s.properAt u).isNone && s.queueFull then some .full
  else none

/-- An AWAITING drop is marked stale (R75). -/
def markStale (d : Nat) (s : State) : State :=
  if (s.drop d).link = some .awaiting then s.setDrop d { s.drop d with stale := true } else s

/-- An accepted DROP.REASSIGN (R75, R134). -/
def reassignEffect (d u : Nat) (s : State) : State :=
  markStale d (evaluateDrop d (s.setDrop d { s.drop d with feed := some u }))

/-- DROP.REASSIGN (R68, R75). -/
def dropReassignVerb (args : List Text) (s : State) : State × Reply :=
  if s.saving then refuse .busy s
  else match args with
    | [a, b] => match argDrop a, argUnit b with
      | some d, some u => match reassignRefusal s d u with
        | some r => refuse r s
        | none => serviceReply d (reassignEffect d u s)
      | _, _ => refuse .args s
    | _ => refuse .args s

def execDropReassign (l : Lane) (s : State) : Outcome := dispatch .dropReassign l dropReassignVerb s

/-- The first check of DROP.SEND that fails (R76). -/
def sendRefusal (s : State) (d : Nat) : Option Reason :=
  let r := s.drop d
  if !r.served then some .state
  else if r.needsPlace && s.queueFull then some .full
  else none

/-- An accepted DROP.SEND (R76): the HOST request, which makes a SETTLED or UNCONFIRMED drop QUEUED, or PARKED in an
outage, "with its attempts set to 0" in either case. -/
def sendEffect (d : Nat) (s : State) : State :=
  let s1 := request .host false d s
  if (s.drop d).free then s1.setDrop d { s1.drop d with attempts := 0 } else s1

def execDropSend (l : Lane) (s : State) : Outcome :=
  dispatch .dropSend l (oneDropVerb sendRefusal sendEffect) s

/-! ## Reading the drop table (R77) -/

/-- DROP.READ's reply fields: the fields of R61 in its order, then the block's protection flag (R77). That the three flags
stand as 1 or 0 is the model's choice (log 14). -/
def dropFields (s : State) (d : Nat) : List Field :=
  let r := s.drop d
  [fWord (serviceWord r.service), fOpt (fun a => [.hex6 a]) r.address, fOpt fTime r.account, fTiers r.tiers,
   fList (r.events.map fNum), fOpt fNum r.feed, fOpt (fun l => fWord l.word) r.link, fNum r.attempts, fNum r.misses,
   fFlag r.stale, fFlag r.parkOnClose, fOpt fTime r.lastConfirmed, fOpt fNum r.outage, fOpt fTime r.accrual,
   fOpt fTime r.lastEnd, fNum r.pending, fFlag (s.dropGuarded d)]

/-- DROP.READ (R77). -/
def dropReadVerb (args : List Text) (s : State) : Reply :=
  match args with
  | [a] => match argDrop a with
    | some d => .ok (dropFields s d)
    | none => .err .args
  | _ => .err .args

def execDropRead (l : Lane) (s : State) : Outcome := answer .dropRead l dropReadVerb s

/-- The drops a DROP.LIST word names: a service state or a link state (R77). -/
def argDropFilter (t : Text) : Option (Drop → Bool) :=
  match argWordOf serviceWords t with
  | some v => some fun r => r.service == v
  | none => (argWordOf linkWords t).map fun l r => r.link == some l

/-- DROP.LIST (R77). Of no drops there is no field: the model's choice (log 14). -/
def dropListVerb (args : List Text) (s : State) : Reply :=
  match args with
  | [a, b] => match argDropFilter a, argDrop b with
    | some p, some start =>
      let (found, cont) := listFrom (fun d => p (s.drop d)) (List.range 2048) start 2047
      .ok (found.map fNum ++ [fOpt fNum cont])
    | _, _ => .err .args
  | _ => .err .args

def execDropList (l : Lane) (s : State) : Outcome := answer .dropList l dropListVerb s

end Sys2Proof.Machine
end

