-- ==== Sys2Proof/Machine/Journal.lean ====
section
/-! DEFINITION. The Billing Journal (chapter 8): JOURNAL.READ, RELEASE and STATUS, PERIOD.CLOSE, and the drain of pending
credit. Writing a record is `writeRecord` (Ops.lean). -/

namespace Sys2Proof.Machine

/-- How many records after the oldest the number `n` stands, when it lies in the held range (R139). -/
def heldIndex (s : State) (n : Word) : Option Nat :=
  s.bjn.held.head?.bind fun r =>
    let i := (n - r.seq).toNat
    if i < s.bjn.held.length then some i else none

/-- The kind word and the fields of the kind (R140, R145). -/
def bodyFields : JBody → String × List Field
  | .connect d acc a t => ("CONNECT", [fNum d, fOpt fTime acc, fOpt (fun a => [.hex6 a]) a, fTiers t])
  | .tiers d acc old new => ("TIERS", [fNum d, fOpt fTime acc, fTiers old, fTiers new])
  | .suspend d acc => ("SUSPEND", [fNum d, fOpt fTime acc])
  | .resume d acc => ("RESUME", [fNum d, fOpt fTime acc])
  | .disconnect d acc => ("DISCONNECT", [fNum d, fOpt fTime acc])
  | .purchase d acc e p => ("PURCHASE", [fNum d, fOpt fTime acc, fNum e, fNum p])
  | .credit d acc o since til m deferred =>
    ("CREDIT", [fNum d, fOpt fTime acc, fOpt fNum o, fOpt fTime since, fOpt fTime til, fNum m, fFlag deferred])
  | .period n => ("PERIOD", [fNum n])

/-- A record's fields in a reply, separated by spaces (R145). -/
def recordField (r : JRec) : Field :=
  List.intercalate [.word " "]
    ([fTime r.seq, fWord (bodyFields r.body).1, fTime r.time, fFlag r.uncertain] ++ (bodyFields r.body).2)

/-- The records of a JOURNAL.READ from number `n`, up to `count` (R145); none where RANGE refuses it. -/
def recordsFrom (s : State) (n : Word) (count : Nat) : Option (List JRec) :=
  match heldIndex s n with
  | some i => some ((s.bjn.held.drop i).take count)
  | none => if n = s.bjn.nextSeq then some [] else none

/-- JOURNAL.READ (R145). -/
def journalReadVerb (args : List Text) (s : State) : Reply :=
  match args with
  | [a, b] => match argWord a, argNum 1 8 b with
    | some n, some count => match recordsFrom s n count with
      | none => .err .range
      | some [] => .ok []
      | some (r :: rs) => .ok [List.intercalate [.word ";"] ((r :: rs).map recordField)]
    | _, _ => .err .args
  | _ => .err .args

def execJournalRead (l : Lane) (s : State) : Outcome := answer .journalRead l journalReadVerb s

/-- Writes the remaining count of the drain; none is IDLE (R139). -/
def State.setDrainLeft (n : Option Nat) (s : State) : State := { s with bjn := { s.bjn with drainLeft := n } }

/-- An accepted JOURNAL.RELEASE of the first `n` held records (R146), which starts or extends the drain (R149). -/
def releaseRecords (n : Nat) (s : State) : State :=
  { s with bjn := { s.bjn with held := s.bjn.held.drop n, drainLeft := some 2048 } }

/-- JOURNAL.RELEASE (R146). -/
def journalReleaseVerb (args : List Text) (s : State) : State × Reply :=
  if s.saving then refuse .busy s
  else match args with
    | [a] => match argWord a with
      | none => refuse .args s
      | some n => match heldIndex s n with
        | none => refuse .range s
        | some i => (releaseRecords (i + 1) s, .ok [fNum (releaseRecords (i + 1) s).free])
    | _ => refuse .args s

def execJournalRelease (l : Lane) (s : State) : Outcome := dispatch .journalRelease l journalReleaseVerb s

/-- How many drops hold pending credit (R147). -/
def State.pendingDrops (s : State) : Nat := (s.dropKeys.filter fun d => 0 < (s.drop d).pending).length

/-- The drain as JOURNAL.STATUS shows it: `-` when IDLE, and once its last visit is made (R147, R150). -/
def drainFields (s : State) : List Field :=
  match s.bjn.drainLeft with
  | none => [fDash]
  | some 0 => [fDash]
  | some (n + 1) => [fNum s.bjn.drainCursor, fNum (n + 1)]

/-- JOURNAL.STATUS (R147). -/
def journalStatusVerb (args : List Text) (s : State) : Reply :=
  match args with
  | [] => .ok ([fOpt (fun r => fTime r.seq) s.bjn.held.head?, fOpt (fun r => fTime r.seq) s.bjn.held.getLast?,
      fTime s.bjn.nextSeq, fNum s.bjn.held.length, fNum s.free, fNum s.bjn.period, fNum s.pendingDrops]
      ++ drainFields s)
  | _ => .err .args

def execJournalStatus (l : Lane) (s : State) : Outcome := answer .journalStatus l journalStatusVerb s

/-- The period number after `n` (R148). -/
def nextPeriod (n : Nat) : Nat := if 4294967295 ≤ n then 1 else n + 1

/-- An accepted PERIOD.CLOSE (R148). -/
def periodCloseEffect (s : State) : State :=
  let s1 := writeRecord (.period s.bjn.period) s
  { s1 with bjn := { s1.bjn with period := nextPeriod s1.bjn.period } }

/-- PERIOD.CLOSE (R148). An argument is ARGS after BUSY and before JOURNAL: the model's choice (log 32). -/
def periodCloseVerb (args : List Text) (s : State) : State × Reply :=
  if s.saving then refuse .busy s
  else match args with
    | [] =>
      if s.free = 0 then refuse .journal s
      else (periodCloseEffect s, .ok [fTime s.bjn.nextSeq, fNum (periodCloseEffect s).bjn.period])
    | _ => refuse .args s

def execPeriodClose (l : Lane) (s : State) : Outcome := dispatch .periodClose l periodCloseVerb s

/-! ## The drain (8.4) -/

/-- The drain can visit: RUNNING with drops left, in a state in which it advances (R149, R150). -/
def State.canDrain (s : State) : Bool := s.bjn.drainLeft.any (fun n => decide (0 < n)) && s.passesAdvance

/-- The drain writes out the drop's pending credit (R150): one deferred record, the pending credit at 0, and a VACANT
drop's account cleared. -/
def drainDrop (d : Nat) (s : State) : State :=
  let r := s.drop d
  if r.pending = 0 then s
  else
    let s1 := writeRecord (.credit d r.account none none none r.pending true) s
    s1.setDrop d { r with pending := 0, account := if r.service = .vacant then none else r.account }

/-- The cursor and the remaining count after a visit (R150). -/
def advanceDrain (s : State) : State :=
  { s with bjn := { s.bjn with
      drainCursor := if 2047 ≤ s.bjn.drainCursor then 0 else s.bjn.drainCursor + 1
      drainLeft := s.bjn.drainLeft.map fun n => n - 1 } }

/-- One visit of the drain (R150); with no free record it stops before visiting. -/
def drainVisit (s : State) : State :=
  if s.free = 0 then s.setDrainLeft none else advanceDrain (drainDrop s.bjn.drainCursor s)

def execDrainVisit (s : State) : Outcome := if s.canDrain then done (drainVisit s) else .next s

/-- DRAIN_CIRCUIT_END: the remaining count is 0, so the run is IDLE (R150). -/
def execDrainCircuitEnd (s : State) : Outcome :=
  if s.bjn.drainLeft = some 0 then done (s.setDrainLeft none) else .next s

end Sys2Proof.Machine
end

