-- ==== Sys2Proof/Machine/Sources.lean ====
section
/-! DEFINITION. The Source Monitor (2.1, 2.2): SOURCE.* verbs, the judgment of a sample and what it reports. -/

namespace Sys2Proof.Machine

/-- The kind words (R24). -/
def sourceKindWords : List (String × SourceKind) :=
  [("SLATE", .slate), ("SATELLITE", .satellite), ("OFFAIR", .offair), ("STUDIO", .studio), ("ALERT", .alert)]

/-- A kind's word. -/
def sourceKindWord : SourceKind → String
  | .slate => "SLATE"
  | .satellite => "SATELLITE"
  | .offair => "OFFAIR"
  | .studio => "STUDIO"
  | .alert => "ALERT"

/-- SOURCE.SET's arguments (R25). -/
def argsSourceSet : List Text → Option (Nat × SourceCfg)
  | [a, b, c] => do
    let k ← argSource a
    let kind ← argWordOf sourceKindWords b
    let monitored ← argFlag c
    return (k, ⟨kind, monitored⟩)
  | _ => none

/-- SLATE belongs to source 0 alone, which is not monitored (R24, R25). -/
def sourceCfgFits (k : Nat) (c : SourceCfg) : Bool :=
  if k = 0 then c.kind == .slate && !c.monitored else c.kind != .slate

/-- LUR takes a change in whether source `k` is usable: the slots that use it are resolved again (R6),
in ascending slot order (log 44). -/
def usabilityChanged (k : Nat) (s : State) : State := resolveSlots (s.slotKeys.filter (usesSource s k)) s

/-- An accepted SOURCE.SET (R25). -/
def sourceSetEffect (k : Nat) (c : SourceCfg) (s : State) : State :=
  let old := s.source k
  if c.monitored = old.cfg.monitored then s.setSource k { old with cfg := c }
  else usabilityChanged k (s.setSource k ⟨c, .present, 0, 0⟩)

/-- SOURCE.SET (R25). -/
def sourceSetVerb (args : List Text) (s : State) : State × Reply :=
  if s.saving then refuse .busy s
  else match argsSourceSet args with
    | none => refuse .args s
    | some (k, c) => if sourceCfgFits k c then accept (sourceSetEffect k c s) else refuse .args s

def execSourceSet (l : Lane) (s : State) : Outcome := dispatch .sourceSet l sourceSetVerb s

/-- A presence state's word (R24). -/
def Presence.word : Presence → String
  | .present => "PRESENT"
  | .doubtful => "DOUBTFUL"
  | .lost => "LOST"
  | .returning => "RETURNING"

/-- SOURCE.READ (R26). That the presence is its whole word, where SOURCE.LIST has its letter, is the model's choice
(log 14). -/
def sourceReadVerb (args : List Text) (s : State) : Reply :=
  match args with
  | [a] => match argSource a with
    | none => .err .args
    | some k =>
      let r := s.source k
      .ok [fWord (sourceKindWord r.cfg.kind), fFlag r.cfg.monitored, fWord r.presence.word, fNum r.misses, fNum r.goods]
  | _ => .err .args

def execSourceRead (l : Lane) (s : State) : Outcome := answer .sourceRead l sourceReadVerb s

/-- The letter of a source in SOURCE.LIST (R26). -/
def Source.letter (r : Source) : String :=
  if !r.cfg.monitored then "-"
  else match r.presence with
    | .present => "P"
    | .doubtful => "D"
    | .lost => "L"
    | .returning => "R"

/-- SOURCE.LIST: 48 letters (R26), which stand together as one field: the model's choice (log 14). -/
def sourceListVerb (args : List Text) (s : State) : Reply :=
  match args with
  | [] => .ok [(List.range 48).map fun k => .word (s.source k).letter]
  | _ => .err .args

def execSourceList (l : Lane) (s : State) : Outcome := answer .sourceList l sourceListVerb s

/-! ## The presence monitor (R28 to R30) -/

/-- What a sample's judgment reports of a source (R30). -/
inductive Report where
  | none
  | lost (fromDoubtful : Bool)
  | returned
  deriving DecidableEq, Repr

/-- The transition of a monitored source on a judged sample (the table of R29), with its report (R30). -/
def judged (p : Params) (good : Bool) (r : Source) : Source × Report :=
  match r.presence with
  | .present =>
    if good then (r, .none)
    else if p.lossSamples ≤ 1 then ({ r with presence := .lost, misses := 0, goods := 0 }, .lost true)
    else ({ r with presence := .doubtful, misses := 1, goods := 0 }, .none)
  | .doubtful =>
    if good then ({ r with presence := .present, misses := 0 }, .none)
    else if p.lossSamples ≤ r.misses + 1 then ({ r with presence := .lost, misses := 0 }, .lost true)
    else ({ r with misses := r.misses + 1 }, .none)
  | .lost =>
    if !good then (r, .none)
    else if p.returnSamples ≤ 1 then ({ r with presence := .present, misses := 0, goods := 0 }, .returned)
    else ({ r with presence := .returning, misses := 0, goods := 1 }, .none)
  | .returning =>
    if !good then ({ r with presence := .lost, goods := 0 }, .lost false)
    else if p.returnSamples ≤ r.goods + 1 then ({ r with presence := .present, goods := 0 }, .returned)
    else ({ r with goods := r.goods + 1 }, .none)

/-- LUR takes the loss of source `k` (R7, R18, R30): the latches of the slots whose primary it is, FALLBACK when one is
newly set, EMERGENCY when the override runs on it, and the resolution of the slots concerned, in ascending slot order
(log 44). -/
def sourceLost (k : Nat) (fromDoubtful : Bool) (s : State) : State :=
  let fresh := s.slotKeys.filter fun j => (s.slot j).cfg.primary == k && !(s.slot j).latch
  let s1 := fresh.foldl (fun s j => setLatch true j s) s
  let s2 := raiseIf (!fresh.isEmpty) .fallback s1
  let s3 := raiseIf (s2.lur.override.active && s2.lur.override.source == k) .emergency s2
  resolveSlots (s3.slotKeys.filter fun j => fresh.contains j || (fromDoubtful && usesSource s3 k j)) s3

/-- LUR takes the return of source `k` (R8, R30): auto-restore clears latches, and the slots that use it are resolved
again. -/
def sourceReturned (k : Nat) (s : State) : State :=
  let restored := s.slotKeys.filter fun j => (s.slot j).cfg.primary == k && (s.slot j).cfg.autoRestore
  let s1 := restored.foldl (fun s j => setLatch false j s) s
  usabilityChanged k s1

/-- SMN reports one transition (R30). -/
def reportPresence (k : Nat) (r : Report) (s : State) : State :=
  match r with
  | .none => s
  | .lost d => sourceLost k d (raise .source s)
  | .returned => sourceReturned k (raise .source s)

/-- SMN judges one sample of 48 counts: the transitions of every monitored source, then the reports in ascending
source order (R28 to R30; log 21). -/
def judgeSample (counts : List Byte) (s : State) : State :=
  let monitored := (List.range 48).filter fun k => (s.source k).cfg.monitored
  let verdict := fun k => judged s.params ((counts.getD k 0#8) != 0#8) (s.source k)
  let s1 := monitored.foldl (fun t k => t.setSource k (verdict k).1) s
  monitored.foldl (fun t k => reportPresence k (verdict k).2 t) s1

end Sys2Proof.Machine
end

