-- ==== Sys2Proof/Machine/Matrix.lean ====
section
/-! DEFINITION. The Matrix Port (2.3, 2.4): the choice of the next transaction, its answers and time-outs, the sample
timer's sample, and MATRIX.STATUS. -/

namespace Sys2Proof.Machine

/-- The port acts in every run state but LOADING (R36). -/
def State.portActs (s : State) : Bool := s.sst.runState != .loading

/-- SAMPLE_DUE: the read-due flag is set; a sample merges into an unissued read (R27). -/
def execSampleDue (s : State) : Outcome :=
  if s.portActs then done { s with mxp := { s.mxp with readDue := true } } else .next s

/-- MXP issues a read (R27, R35). -/
def issueRead (s : State) : State :=
  { s with mxp := { s.mxp with flight := some .read, readDue := false, last := .read } }

/-- The bytes the part shifts out for a transaction: SWITCH with the output slot and the input source, or ACTIVITY (the
table of R33). A reissue sends the same bytes (R34). -/
def Flight.bytes : Flight → List Byte
  | .order slot source _ => [0x01#8, BitVec.ofNat 8 slot, BitVec.ofNat 8 source]
  | .read => [0x02#8]

/-- MXP issues the order at the head (R33, R35). -/
def issueOrder (s : State) : State :=
  match s.mxp.queue with
  | [] => s
  | o :: q => { s with mxp := { s.mxp with queue := q, flight := some (.order o.slot o.source 1), last := .order } }

/-- The choice of R35 when the port is free. -/
def issueNext (s : State) : State :=
  if s.mxp.queue.isEmpty then (if s.mxp.readDue then issueRead s else s)
  else if !s.mxp.readDue then issueOrder s
  else match s.mxp.last with
    | .order => issueRead s
    | .read => issueOrder s

/-- MATRIX_ISSUE: with the port free, the next transaction begins (R35). -/
def execMatrixIssue (s : State) : Outcome :=
  if s.portActs && s.mxp.flight.isNone then done (issueNext s) else .next s

/-- The transaction in flight is gone. -/
def endFlight (s : State) : State := { s with mxp := { s.mxp with flight := none } }

/-- ACTIVITY_READ_ANSWER: the read is answered with its 48 counts, and SMN judges the sample (R28). Outside a read the
counts belong to no transaction (R31). -/
def execActivityReadAnswer (counts : List Byte) (s : State) : Outcome :=
  if counts.length ≠ 48 then .refused .illFormed
  else match s.mxp.flight with
    | some .read => done (judgeSample counts (endFlight s))
    | some (.order _ _ _) => .next s
    | none => .next s

/-- ACTIVITY_READ_TIMEOUT: the read has failed; MATRIX attention, no sample (R31). -/
def execActivityReadTimeout (s : State) : Outcome :=
  match s.mxp.flight with
  | some .read => done (raise .matrix (endFlight s))
  | some (.order _ _ _) => .next s
  | none => .next s

/-- MXP writes what slot `k` carries and its fault flag (R34). -/
def setCarried (k : Nat) (carried : Option Nat) (fault : Bool) (s : State) : State :=
  s.setSlot k { s.slot k with carried := carried, fault := fault }

/-- SWITCH_ANSWERED: ready within the 50 ms of an issue (R34). Without an order in flight it belongs to no
transaction. -/
def execSwitchAnswered (s : State) : Outcome :=
  match s.mxp.flight with
  | some (.order k src _) => done (endFlight (setCarried k (some src) false s))
  | some .read => .next s
  | none => .next s

/-- SWITCH_TIMEOUT: the first issue is sent once more, the second has failed (R34). -/
def execSwitchTimeout (s : State) : Outcome :=
  match s.mxp.flight with
  | some (.order k src issue) =>
    if issue ≤ 1 then done { s with mxp := { s.mxp with flight := some (.order k src 2) } }
    else done (raise .matrix (endFlight (setCarried k none true s)))
  | some .read => .next s
  | none => .next s

/-- LATE_MATRIX_ANSWER: a ready or counts outside any transaction are disregarded (R31, R34, R38). -/
def execLateMatrixAnswer (s : State) : Outcome := .next s

/-- The slots whose matrix fault flag is set, ascending (R39). -/
def State.faultedSlots (s : State) : List Nat := s.slotKeys.filter fun k => (s.slot k).fault

/-- MATRIX.STATUS (R39). -/
def matrixStatusVerb (args : List Text) (s : State) : Reply :=
  match args with
  | [] => .ok (
      [fNum s.mxp.queue.length]
      ++ (match s.mxp.flight with
          | some (.order k src issue) => [fNum k, fNum src, fNum issue]
          | some .read => [fDash]
          | none => [fDash])
      ++ [if s.mxp.flight = some .read then fWord "R" else fDash, fFlag s.mxp.readDue,
          fWord (match s.mxp.last with | .read => "R" | .order => "O"),
          fList (s.faultedSlots.map fNum)])
  | _ => .err .args

def execMatrixStatus (l : Lane) (s : State) : Outcome := answer .matrixStatus l matrixStatusVerb s

end Sys2Proof.Machine
end

