-- ==== Sys2Proof/Machine/Office.lean ====
section
/-! DEFINITION. The Office Port (chapter 10): lines in and out, the output queue, ATTN.*, IDENTIFY, STATUS, PARAM.*. The
dispatch of a line is in Ops.lean. -/

namespace Sys2Proof.Machine

/-! ## Lines received (R162, R163, R165) -/

/-- A lane's letter (R163). -/
def laneLetter : Lane → Byte
  | .q => 0x51#8
  | .p => 0x50#8
  | .m => 0x4D#8

/-- The lane of a letter (R162). -/
def argLane (b : Byte) : Option Lane :=
  if b = laneLetter .q then some .q
  else if b = laneLetter .p then some .p
  else if b = laneLetter .m then some .m
  else none

/-- The byte two hex digits say. -/
def hexPair (a b : Byte) : Option Byte :=
  (hexVal a).bind fun x => (hexVal b).map fun y => BitVec.ofNat 8 (16 * x + y)

/-- The exclusive-or of some characters (R163). -/
def checkOf (t : Text) : Byte := t.foldl (fun a b => a ^^^ b) 0#8

/-- The lane, the tag and the rest of a line that begins with them (R162). -/
def readHead : Text → Option (Lane × Byte × Text)
  | a :: b :: c :: rest => (argLane a).bind fun l => (hexPair b c).map fun t => (l, t, rest)
  | _ => none

/-- What stands before the ` *` and two hex digits that end a line, when the check agrees (R163). -/
def checkedBody (line : Text) : Option Text :=
  match line.reverse with
  | d :: c :: star :: sp :: pre =>
    if star = chStar ∧ sp = chSpace ∧ hexPair c d = some (checkOf (pre.reverse ++ [chSpace])) then some pre.reverse
    else none
  | _ => none

/-- A reply given at arrival takes a free place at once, or is dropped with LINK attention (R165). -/
def replyAtArrival (l : Lane) (tag : Byte) (r : Reason) (s : State) : State :=
  if 1 ≤ s.freePlaces then emit (.reply l tag (.err r)) s else raise .link s

/-- OFP judges a line whose lane and tag parse (the table of R165). -/
def judgeLine (l : Lane) (tag : Byte) (line : Text) (s : State) : State :=
  match checkedBody line with
  | none => replyAtArrival l tag .check s
  | some body =>
    if s.sst.runState = .loading then replyAtArrival l tag .loading s
    else if 4 ≤ (s.ofp.inbox l).length then replyAtArrival l tag .full s
    else { s with ofp := s.ofp.setInbox l (s.ofp.inbox l ++ [⟨tag, body.drop 3⟩]) }

/-- The line of some characters received before an LF, unless R162 discards them: `none` is a discard. -/
def receivedLine (chars : List Byte) (framing : Bool) : Option (Lane × Byte × Text) :=
  if framing || chars.getLast? != some chCr || decide (200 < chars.length + 1) then none
  else (readHead chars.dropLast).map fun h => (h.1, h.2.1, chars.dropLast)

/-- LINE_RECEIVED (R162, R165). -/
def execLineReceived (chars : List Byte) (framing : Bool) (s : State) : Outcome :=
  if chars.contains lineFeed then .refused .illFormed
  else match receivedLine chars framing with
    | none => .next (raise .link s)
    | some (l, tag, line) => .next (judgeLine l tag line s)

/-- LINE_OVERFLOW: the run of characters through the next LF is one discarded line (R162). -/
def execLineOverflow (s : State) : Outcome := .next (raise .link s)

/-! ## The output queue (R167, R169) -/

/-- LINE_SENT: the line at the head has been sent and frees its place (R167). -/
def execLineSent (s : State) : Outcome := .next { s with ofp := { s.ofp with outQ := s.ofp.outQ.tail } }

/-- DEFERRED_REPLY_APPEND: a held deferred reply takes the first free place (R167). -/
def execDeferredReplyAppend (s : State) : Outcome :=
  match s.ofp.held with
  | none => .next s
  | some o =>
    if 1 ≤ s.freePlaces then
      let s1 := emit o s
      .next { s1 with ofp := { s1.ofp with held := none } }
    else .next s

/-- A kind named by a notice: announced, and out of the announce set (R169). -/
def Attn.noticed (a : Attn) : Attn := { a with announced := true, due := false }

/-- A due notice is given a place: one is free, and no deferred reply is held, since the first free place is that
reply's (R167, R169; log 12). -/
def State.noticePlaced (s : State) : Bool :=
  !s.announceSet.isEmpty && s.ofp.held.isNone && decide (1 ≤ s.freePlaces)

/-- NOTICE_APPEND (R169). -/
def execNoticeAppend (s : State) : Outcome :=
  if s.noticePlaced then .next (emit (.notice s.announceSet) (s.mapAttn Attn.noticed s.announceSet)) else .next s

/-- UNKNOWN_VERB: a dispatched line whose verb word the part does not know (R166). -/
def execUnknownVerb (l : Lane) (s : State) : Outcome :=
  match s.headLine l with
  | none => .next s
  | some ln =>
    if ln.request.1 = none then .next (emit (.reply l ln.tag (.err .unknown)) (popLine l s)) else .next s

/-! ## Lines sent (R164) -/

/-- The reason words. -/
def Reason.word : Reason → String
  | .check => "CHECK"
  | .loading => "LOADING"
  | .full => "FULL"
  | .unknown => "UNKNOWN"
  | .lane => "LANE"
  | .args => "ARGS"
  | .range => "RANGE"
  | .state => "STATE"
  | .busy => "BUSY"
  | .guarded => "PROTECTED"
  | .journal => "JOURNAL"
  | .duplicate => "DUPLICATE"
  | .inUse => "INUSE"
  | .overlap => "OVERLAP"
  | .pendingCredit => "PENDING"
  | .time => "TIME"
  | .aborted => "ABORTED"
  | .flash => "FLASH"

/-- The characters of a piece (R163, R164): hex digits in capitals. -/
def Piece.text : Piece → Text
  | .num n => decimal n
  | .word w => ascii w
  | .hex2 b => hexDigits 2 b.toNat
  | .hex6 a => hexDigits 6 a.toNat
  | .chars t => t

/-- The characters of a field. -/
def fieldChars (f : Field) : Text := (f.map Piece.text).flatten

/-- The characters of a reply after its lane and tag (R164). -/
def replyChars : Reply → Text
  | .ok fields => ascii " OK" ++ (fields.map fun f => chSpace :: fieldChars f).flatten
  | .err r => ascii " ERR " ++ ascii r.word

/-- A line's characters before the space and its check (R164). -/
def OutLine.head : OutLine → Text
  | .reply l tag body => [0x52#8, laneLetter l] ++ hexDigits 2 tag.toNat ++ replyChars body
  | .notice ks => ascii "N ATTN " ++ fieldChars (fKinds ks)

/-- A line's characters on TXD: its parts, a space, `*`, its check, CR LF (R164). -/
def OutLine.chars (o : OutLine) : Text :=
  o.head ++ [chSpace, chStar] ++ hexDigits 2 (checkOf (o.head ++ [chSpace])).toNat ++ [chCr, chLf]

/-! ## The attention verbs (R170, R171) -/

/-- ATTN.READ (R170). -/
def attnReadVerb (args : List Text) (s : State) : Reply :=
  match args with
  | [] => .ok [fKinds s.pendingKinds, fKinds (Kind.all.filter fun k => !(s.attn k).enabled)]
  | _ => .err .args

def execAttnRead (l : Lane) (s : State) : Outcome := answer .attnRead l attnReadVerb s

/-- ATTN.CLEAR (R170). -/
def attnClearVerb (args : List Text) (s : State) : State × Reply :=
  match args with
  | [a] => match argKindsOrAll a with
    | some ks => accept (s.mapAttn Attn.cleared ks)
    | none => refuse .args s
  | _ => refuse .args s

def execAttnClear (l : Lane) (s : State) : Outcome := dispatch .attnClear l attnClearVerb s

/-- The kinds ATTN.MASK enables: a list, ALL, or `-` for none (R171). -/
def argMask (t : Text) : Option (List Kind) := if t = [chDash] then some [] else argKindsOrAll t

/-- An accepted ATTN.MASK (R171). -/
def maskKinds (ks : List Kind) (s : State) : State :=
  Kind.all.foldl (fun s k => s.setAttn k ((s.attn k).masked (ks.contains k))) s

/-- ATTN.MASK (R171). -/
def attnMaskVerb (args : List Text) (s : State) : State × Reply :=
  match args with
  | [a] => match argMask a with
    | some ks => accept (maskKinds ks s)
    | none => refuse .args s
  | _ => refuse .args s

def execAttnMask (l : Lane) (s : State) : Outcome := dispatch .attnMask l attnMaskVerb s

/-- ATTN.FORCE (R171). -/
def attnForceVerb (args : List Text) (s : State) : State × Reply :=
  match args with
  | [a] => match argKindsOrAll a with
    | some ks => accept (s.mapAttn Attn.raised ks)
    | none => refuse .args s
  | _ => refuse .args s

def execAttnForce (l : Lane) (s : State) : Outcome := dispatch .attnForce l attnForceVerb s

/-! ## Identity and status (R172, R173) -/

/-- The identity as the flag gives it (R172). -/
def identity (compat : Bool) : Reply :=
  .ok [fWord "WILTZEN", fWord "HX-240", fWord (if compat then "B" else "C")]

/-- The lane's line is IDENTIFY COMPAT (R172). -/
def State.compatWaits (s : State) (l : Lane) : Bool :=
  (s.dispatching l .identify).any fun x => x.2 == [ascii "COMPAT"]

/-- IDENTIFY with no argument, or with one that is not COMPAT (R172). -/
def identifyVerb (args : List Text) (s : State) : Reply :=
  match args with
  | [] => identity s.ofp.compat
  | _ => .err .args

def execIdentify (l : Lane) (s : State) : Outcome :=
  if s.compatWaits l then .next s else answer .identify l identifyVerb s

/-- IDENTIFY COMPAT (R172). -/
def identifyCompatVerb (_args : List Text) (s : State) : State × Reply :=
  ({ s with ofp := { s.ofp with compat := true } }, identity true)

def execIdentifyCompat (l : Lane) (s : State) : Outcome :=
  if s.compatWaits l then dispatch .identify l identifyCompatVerb s else .next s

/-- A run state's word (R175). -/
def RunState.word : RunState → String
  | .loading => "LOADING"
  | .standby => "STANDBY"
  | .run => "RUN"
  | .stopping => "STOPPING"
  | .saving => "SAVING"

/-- STATUS (R173). The line has left its inbox; the reply being built counts in the output queue. -/
def statusVerb (args : List Text) (s : State) : Reply :=
  match args with
  | [] => .ok [fWord s.sst.runState.word, fTimeState s, fFlag s.tmb.uncertain, fClock s, fNum s.pendingKinds.length,
      fNum s.ofp.inboxP.length, fNum s.ofp.inboxM.length, fNum s.ofp.inboxQ.length, fNum (s.ofp.outQ.length + 1)]
  | _ => .err .args

def execStatus (l : Lane) (s : State) : Outcome := answer .status l statusVerb s

/-! ## Parameters (R174) -/

/-- The thirteen parameters, in the order of the table of 10.5. -/
inductive Param where
  | refreshStep | authTries | refreshMisses | pollTries | silentCycles | pollCycle | lossSamples | returnSamples
  | carouselFloor | journalWatermark | creditThreshold | alertInterval | holdoff
  deriving DecidableEq, Repr

/-- The parameters' words, in table order. -/
def paramWords : List (String × Param) :=
  [("REFRESH_STEP", .refreshStep), ("AUTH_TRIES", .authTries), ("REFRESH_MISSES", .refreshMisses),
   ("POLL_TRIES", .pollTries), ("SILENT_CYCLES", .silentCycles), ("POLL_CYCLE", .pollCycle),
   ("LOSS_SAMPLES", .lossSamples), ("RETURN_SAMPLES", .returnSamples), ("CAROUSEL_FLOOR", .carouselFloor),
   ("JOURNAL_WATERMARK", .journalWatermark), ("CREDIT_THRESHOLD", .creditThreshold),
   ("ALERT_INTERVAL", .alertInterval), ("HOLDOFF", .holdoff)]

/-- The least and the greatest value of a parameter (the table of 10.5). -/
def Param.range : Param → Nat × Nat
  | .refreshStep => (1, 65535)
  | .authTries => (1, 7)
  | .refreshMisses => (1, 15)
  | .pollTries => (1, 7)
  | .silentCycles => (1, 15)
  | .pollCycle => (10, 3600)
  | .lossSamples => (1, 15)
  | .returnSamples => (1, 63)
  | .carouselFloor => (10, 250)
  | .journalWatermark => (257, 2048)
  | .creditThreshold => (0, 1440)
  | .alertInterval => (1, 60)
  | .holdoff => (600, 65535)

/-- The value a parameter holds. -/
def Param.value : Param → Params → Nat
  | .refreshStep, p => p.refreshStep
  | .authTries, p => p.authTries
  | .refreshMisses, p => p.refreshMisses
  | .pollTries, p => p.pollTries
  | .silentCycles, p => p.silentCycles
  | .pollCycle, p => p.pollCycle
  | .lossSamples, p => p.lossSamples
  | .returnSamples, p => p.returnSamples
  | .carouselFloor, p => p.carouselFloor
  | .journalWatermark, p => p.journalWatermark
  | .creditThreshold, p => p.creditThreshold
  | .alertInterval, p => p.alertInterval
  | .holdoff, p => p.holdoff

/-- The parameters with one written. -/
def Param.write : Param → Nat → Params → Params
  | .refreshStep, v, p => { p with refreshStep := v }
  | .authTries, v, p => { p with authTries := v }
  | .refreshMisses, v, p => { p with refreshMisses := v }
  | .pollTries, v, p => { p with pollTries := v }
  | .silentCycles, v, p => { p with silentCycles := v }
  | .pollCycle, v, p => { p with pollCycle := v }
  | .lossSamples, v, p => { p with lossSamples := v }
  | .returnSamples, v, p => { p with returnSamples := v }
  | .carouselFloor, v, p => { p with carouselFloor := v }
  | .journalWatermark, v, p => { p with journalWatermark := v }
  | .creditThreshold, v, p => { p with creditThreshold := v }
  | .alertInterval, v, p => { p with alertInterval := v }
  | .holdoff, v, p => { p with holdoff := v }

/-- The counter an owner restarts at every write of its parameter (R89, R110). -/
def restartCounter (p : Param) (s : State) : State :=
  if p = .refreshStep then { s with rsw := { s.rsw with counter := 0 } }
  else if p = .pollCycle then { s with ppl := { s.ppl with timer := 0 } }
  else s

/-- The owner stores a value and acts on it (R174). -/
def paramSetEffect (p : Param) (v : Nat) (s : State) : State :=
  restartCounter p { s with params := p.write v s.params }

/-- A parameter's name. -/
def fParam (p : Param) : Field :=
  fWord (((paramWords.find? fun e => decide (e.2 = p)).map Prod.fst).getD "")

/-- PARAM.SET's arguments: a name, and a value in its range (R174). -/
def argsParamSet : List Text → Option (Param × Nat)
  | [a, b] => (argWordOf paramWords a).bind fun p => (argNum p.range.1 p.range.2 b).map fun v => (p, v)
  | _ => none

/-- PARAM.SET (R174). -/
def paramSetVerb (args : List Text) (s : State) : State × Reply :=
  if s.saving then refuse .busy s
  else match argsParamSet args with
    | none => refuse .args s
    | some (p, v) => (paramSetEffect p v s, .ok [fParam p, fNum v])

def execParamSet (l : Lane) (s : State) : Outcome := dispatch .paramSet l paramSetVerb s

/-- A name and its value as reply fields. -/
def paramFields (s : State) (p : Param) : List Field := [fParam p, fNum (p.value s.params)]

/-- PARAM.READ (R174). -/
def paramReadVerb (args : List Text) (s : State) : Reply :=
  match args with
  | [a] =>
    if a = ascii "ALL" then .ok ((paramWords.map fun e => paramFields s e.2).flatten)
    else match argWordOf paramWords a with
      | some p => .ok (paramFields s p)
      | none => .err .args
  | _ => .err .args

def execParamRead (l : Lane) (s : State) : Outcome := answer .paramRead l paramReadVerb s

end Sys2Proof.Machine
end

