-- ==== Sys2Proof/Machine/Settings.lean ====
section
/-! DEFINITION. The Settings Store (chapter 11) but for the warm reset: power-on, loading, RUN and STOP, saving, clearing. -/

namespace Sys2Proof.Machine

/-- Writes the Settings Store. -/
def State.setSst (x : Sst) (s : State) : State := { s with sst := x }

/-- POWER_ON: every block in its power-on state and the part in LOADING (R175); the flash keeps what stands on it, and
the commands that wait still wait (log 17). -/
def execPowerOn (s : State) : Outcome :=
  .next { State.reset with
    sst := { State.reset.sst with held := s.sst.held }
    draws := s.draws
    pending := s.pending }

/-! ## The image (R177) -/

/-- What a blank image gives every owner (R178 and the owners' rules). -/
def blankImage : SavedImage := ⟨Params.defaults, [], [], [], [], [], .cycle, [], [], [], .normal, [], 1, 1⟩

/-- A drop as the image holds it: CLOSING as VACANT (R61, R177). -/
def Drop.saved (r : Drop) : DropCfg :=
  let v := if r.service = .closing then r.vacated else r
  ⟨v.service, v.address, v.account, v.tiers, v.events, v.feed, v.pending⟩

/-- The saved state as it stands in the live tables (R177, R179). -/
def snapshot (s : State) : SavedImage where
  params := s.params
  sources := s.smn.sources.map fun e => (e.1, e.2.cfg)
  slots := s.lur.slots.map fun e => (e.1, e.2.cfg)
  events := s.eventEntries.map fun e => (e.1, e.2.cfg)
  text := s.crs.text
  enables := s.crs.enables
  mode := s.crs.mode
  units := s.ppl.units.map fun e => (e.1, e.2.cfg)
  drops := s.dtb.drops.map fun e => (e.1, e.2.saved)
  protect := s.dtb.guards
  intake := s.pin.mode
  journal := s.bjn.held
  nextSeq := s.bjn.nextSeq
  period := s.bjn.period

/-- The body of a saved state: 1 to 1,044,480 bytes (R177). What the bytes are is a free value (log 15). -/
def imageBody (i : SavedImage) : List Byte := Config.imageBodyFirst i :: (Config.imageBodyRest i).take 1044479

/-- The 14 bytes of the header over a body (the table of R177): format version 0001h, body length, generation count and
CRC-32, each most significant byte first. -/
def imageHeader (generation : Nat) (body : List Byte) : List Byte :=
  bytesOf 2 1 ++ bytesOf 4 body.length ++ bytesOf 4 generation ++ bytesOf 4 (crc32 body).toNat

/-- A loaded event: cleanup clear, ENDED if it was cancelled, else SCHEDULED (R9). -/
def loadedEvent (c : EventCfg) : Event := ⟨c, if c.cancelled then .ended else .scheduled, false, false⟩

/-- A loaded unit (R105). -/
def loadedUnit (c : UnitCfg) : PlantUnit :=
  if c.kind = .none then PlantUnit.blank
  else ⟨c, if c.inService then .unknown else .outOfService, 0, none, false, none, false, false⟩

/-- A loaded drop (R62): `known` says which event ids the loaded event table has. -/
def loadedDrop (known : Nat → Bool) (c : DropCfg) : Drop :=
  if c.service = .vacant ∨ c.service = .closing then
    { Drop.blank with account := if 0 < c.pending then c.account else none, pending := c.pending }
  else
    { Drop.blank with
      service := c.service, address := c.address, account := c.account, tiers := c.tiers,
      events := c.events.filter known, feed := c.feed, link := some .unconfirmed, pending := c.pending }

/-- The owners take their tables from an image (the table of R177). -/
def loadTables (i : SavedImage) (s : State) : State :=
  { s with
    params := i.params
    smn := ⟨Table.ofList Source.blank (i.sources.map fun e => (e.1, ⟨e.2, .present, 0, 0⟩))⟩
    lur := { s.lur with
      slots := Table.ofList Slot.blank (i.slots.map fun e => (e.1, { Slot.blank e.1 with cfg := e.2 }))
      events := Table.ofList (fun _ => none) (i.events.map fun e => (e.1, some (loadedEvent e.2))) }
    crs := { s.crs with
      mode := i.mode
      cursor := 0
      burst := match i.mode with
        | .burst n => n
        | .cycle => 0
        | .hold _ => 0
        | .stopped => 0
      enables := Table.ofList (fun _ => true) i.enables
      text := i.text }
    ppl := { s.ppl with units := Table.ofList (fun _ => PlantUnit.blank) (i.units.map fun e => (e.1, loadedUnit e.2)) }
    dtb := ⟨Table.ofList (fun _ => Drop.blank)
        (i.drops.map fun e => (e.1, loadedDrop (fun id => i.events.any fun v => v.2.id == id) e.2)),
      Table.ofList (fun _ => false) i.protect⟩
    pin := ⟨i.intake⟩
    bjn := ⟨i.journal, i.nextSeq, i.period, 0, none⟩ }

/-! ## The range check of a body (R178; log 16) -/

/-- At most `n` printable characters (R1, R23). -/
def textFits (n : Nat) (t : Text) : Bool := decide (t.length ≤ n) && t.all isPrintable

/-- The thirteen parameters in their ranges (10.5). -/
def paramsFit (p : Params) : Bool :=
  paramWords.all fun e => decide (e.2.range.1 ≤ e.2.value p) && decide (e.2.value p ≤ e.2.range.2)

/-- A slot's fields in range (R1). -/
def slotFits (k : Nat) (c : SlotCfg) : Bool :=
  decide (1 ≤ k ∧ k ≤ 80) && decide (1 ≤ c.display ∧ c.display ≤ 999) && textFits 8 c.name && decide (c.tier ≤ 15)
    && decide (c.primary ≤ 47) && c.fallback.all fun f => decide (f ≤ 47)

/-- An event's fields in range (R9). -/
def eventFits (k : Nat) (c : EventCfg) : Bool :=
  decide (k < 32) && decide (1 ≤ c.id ∧ c.id ≤ 255) && decide (1 ≤ c.slot ∧ c.slot ≤ 80) && decide (c.source ≤ 47)
    && decide (c.orderOpen ≤ c.start) && decide (c.start < c.stop) && decide (c.price ≤ 65535)

/-- A carousel mode in range (R22). -/
def modeFits : CarouselMode → Bool
  | .burst n => decide (1 ≤ n ∧ n ≤ 255)
  | .hold e => decide (e ≤ 15)
  | .cycle => true
  | .stopped => true

/-- A unit's own fields in range (R103). -/
def unitFits (u : Nat) (c : UnitCfg) : Bool :=
  decide (u < 512) && c.address != some allTerminals && (c.address.isSome == hasTransponder c.kind)
    && c.parent.all (fun p => decide (p < 512))
    && (c.kind != .none || (c.parent.isNone && !c.inService))

/-- A drop's own fields in range (R61): address and feeding unit present exactly when it is not VACANT, the account
absent exactly when it is VACANT with no pending credit. -/
def dropFits (d : Nat) (c : DropCfg) : Bool :=
  let vacant := c.service == .vacant
  decide (d < 2048) && decide (c.pending ≤ maxPending) && c.address != some allTerminals && !c.tiers.getLsbD 0
    && decide (c.events.length ≤ 4) && decide c.events.Nodup && c.events.all (fun id => decide (1 ≤ id ∧ id ≤ 255))
    && (c.address.isNone == vacant) && (c.feed.isNone == vacant) && c.feed.all (fun u => decide (u < 512))
    && (c.account.isNone == (vacant && c.pending == 0))

/-- The drop and the account that every record of a drop carries (R140). -/
def accountFits (d : Nat) (account : Option Word) : Bool := decide (d < 2048) && account.isSome

/-- The fields of a record's kind in range, those that R140 does not call optional present. -/
def bodyFits : JBody → Bool
  | .connect d a x t => accountFits d a && x.any (fun y => y != allTerminals) && !t.getLsbD 0
  | .tiers d a old new => accountFits d a && !old.getLsbD 0 && !new.getLsbD 0
  | .suspend d a => accountFits d a
  | .resume d a => accountFits d a
  | .disconnect d a => accountFits d a
  | .purchase d a e p => accountFits d a && decide (1 ≤ e ∧ e ≤ 255) && decide (p ≤ 65535)
  | .credit d a o _ _ m _ => accountFits d a && o.all (fun n => decide (1 ≤ n ∧ n ≤ 65535))
      && decide (1 ≤ m ∧ m ≤ maxPending)
  | .period n => decide (1 ≤ n ∧ n ≤ 4294967295)

/-- The sequence numbers of some records run without a gap up to `next` less 1 (R139). -/
def seqFits (next : Word) : List JRec → Bool
  | [] => true
  | r :: rs => r.seq + BitVec.ofNat 32 (rs.length + 1) == next && seqFits next rs

/-- The addresses of defined units and of drops that are not VACANT are distinct (R104). -/
def addressesOf (s : State) : List Addr :=
  s.unitKeys.filterMap (fun u => (s.unit u).cfg.address)
    ++ (s.dropKeys.filter fun d => (s.drop d).service != .vacant).filterMap fun d => (s.drop d).address

/-- The forest of the defined units, the drops' feeding units and the distinct addresses, in loaded tables (R104). -/
def plantFits (s : State) : Bool :=
  s.unitKeys.all (fun u => (s.unit u).cfg.parent.all (fun p => (s.unit p).defined)
      && decide ((pathFrom s 25 u).length ≤ 24))
    && s.dropKeys.all (fun d => (s.drop d).feed.all fun u => (s.unit u).defined)
    && decide (addressesOf s).Nodup

/-- Every field of a body is in the range its owner's rule gives (R178). -/
def imageFits (i : SavedImage) : Bool :=
  paramsFit i.params
    && i.sources.all (fun e => decide (e.1 < 48) && sourceCfgFits e.1 e.2)
    && i.slots.all (fun e => slotFits e.1 e.2)
    && i.events.all (fun e => eventFits e.1 e.2) && decide (i.events.map fun e => e.2.id).Nodup
    && textFits 96 i.text && i.enables.all (fun e => decide (e.1 < 16)) && modeFits i.mode
    && i.units.all (fun e => unitFits e.1 e.2)
    && i.drops.all (fun e => dropFits e.1 e.2)
    && i.protect.all (fun e => decide (e.1 < 8))
    && decide (i.journal.length ≤ 4096) && i.journal.all (fun r => bodyFits r.body) && seqFits i.nextSeq i.journal
    && decide (1 ≤ i.period ∧ i.period ≤ 4294967295)
    && plantFits (loadTables i State.reset)

/-! ## Loading (R178) -/

/-- `n` header bytes from byte `k` on, as a number (R177). -/
def headerNumber (h : List Byte) (k n : Nat) : Nat := numberOf ((h.drop k).take n)

/-- Every header byte is FFh: an erased header, or a flash that does not answer (R178). -/
def blankHeader (h : List Byte) : Bool := h.all fun b => b == 0xFF#8

/-- The header and the body check (the first three rows of R178's table): the generation and the saved state, when
LOADED. R177 gives the generation count of a valid image as 1 or more, and R178's row for LOADED does not ask for it: that
a count of 0 loads is the model's choice (log 50). -/
def judgeImage (r : FlashRead) : LoadResult × Option (Nat × SavedImage) :=
  let len := headerNumber r.header 2 4
  if blankHeader r.header then (.blank, none)
  else if headerNumber r.header 0 2 = 1 ∧ 1 ≤ len ∧ len ≤ 1044480 ∧ len ≤ r.body.length
      ∧ (crc32 (r.body.take len)).toNat = headerNumber r.header 10 4 then
    match r.content.filter imageFits with
    | some i => (.loaded, some (headerNumber r.header 6 4, i))
    | none => (.invalid, none)
  else (.invalid, none)

/-- What the flash delivers when it holds the image of a generation and a saved state (R177, R179). -/
def imageRead (g : Nat) (i : SavedImage) : FlashRead := ⟨imageHeader g (imageBody i), imageBody i, some i⟩

/-- The judgment of a load: by the header and the body that are read (R178), also where the part has written a complete
image. Only after a save that has not completed, which leaves BLANK or INVALID (R179, R180), and after a clear, which
leaves BLANK (R181), is an image that is read none (log 17). -/
def judgeLoad (h : FlashHeld) (r : FlashRead) : LoadResult × Option (Nat × SavedImage) :=
  match h with
  | .asAttached => judgeImage r
  | .image _ _ => judgeImage r
  | .torn => (if blankHeader r.header then .blank else .invalid, none)
  | .erased => (.blank, none)

/-- What is known of the flash after a load that has found no image on it (R178). -/
def FlashHeld.withoutImage : FlashHeld → FlashHeld
  | .asAttached => .asAttached
  | .image _ _ => .asAttached
  | .torn => .torn
  | .erased => .erased

/-- A drain starts at entry to STANDBY from LOADING when free is 1 or more and pending credit waits (R149). -/
def startDrain (s : State) : State :=
  if 1 ≤ s.free ∧ 0 < s.pendingDrops then { s with bjn := { s.bjn with drainCursor := 0, drainLeft := some 2048 } }
  else s

/-- What SST knows of the image after the load (R178). -/
def Sst.loaded (x : Sst) (res : LoadResult) (image : Option (Nat × SavedImage)) : Sst :=
  { x with
    runState := .standby
    loadResult := res
    imageValid := image.isSome
    generation := (image.map Prod.fst).getD 0
    held := (image.map fun e => FlashHeld.image e.1 e.2).getD x.held.withoutImage }

/-- The entry to STANDBY from LOADING (R178): resolution, pages, orders, the ALL wave, the drain. -/
def enterStandby (s : State) : State :=
  startDrain (startHead (appendWave .all (rebuildAll (resolveAllAfresh s))))

/-- The load ends (R178). -/
def loadEnd (r : FlashRead) (s : State) : State :=
  let (res, image) := judgeLoad s.sst.held r
  let s1 := loadTables ((image.map Prod.snd).getD blankImage) s
  enterStandby (s1.setSst (s1.sst.loaded res image))

/-- LOAD_END (R178), in LOADING. -/
def execLoadEnd (r : FlashRead) (s : State) : Outcome :=
  if !r.wellFormed then .refused .illFormed
  else if s.sst.runState = .loading then done (loadEnd r s)
  else .next s

/-! ## RUN and STOP (R176) -/

/-- Entry to RUN: the cycle timer at 0 and a cycle started (R110, R175). -/
def enterRun (s : State) : State :=
  let s1 := s.setRunState .run
  startCycle { s1 with ppl := { s1.ppl with timer := 0 } }

/-- RUN (R176). -/
def runVerb (args : List Text) (s : State) : State × Reply :=
  match args with
  | [] =>
    if s.sst.runState ≠ .standby then refuse .state s
    else if !s.tmb.timeSet then refuse .time s
    else accept (enterRun s)
  | _ => refuse .args s

def execRun (l : Lane) (s : State) : Outcome := dispatch .run l runVerb s

/-- Entry to STOPPING (R53, R117, R175); with no window open it ends at once. -/
def enterStopping (s : State) : State := stoppingEnd (stopCycle (s.setRunState .stopping))

/-- STOP (R176). -/
def stopVerb (args : List Text) (s : State) : State × Reply :=
  match args with
  | [] => if s.sst.runState ≠ .run then refuse .state s else accept (enterStopping s)
  | _ => refuse .args s

def execStop (l : Lane) (s : State) : Outcome := dispatch .stop l stopVerb s

/-! ## Saving (R179) -/

/-- The flash erases a header sector, or an abandoned save's operation still runs (R179, R181; log 19). -/
def State.flashErasing (s : State) : Bool :=
  s.sst.abandoned || match s.sst.flash with
    | .erasing _ => true
    | .saving _ => false
    | .idle => false

/-- The dispatch of a verb whose reply comes later (R167): a refusal is answered at once, and an accepted verb leaves
without a reply. -/
def dispatchDeferred (v : Verb) (l : Lane) (refusal : List Text → State → Option Reason) (start : Byte → State → State)
    (s : State) : Outcome :=
  match s.dispatching l v with
  | none => .next s
  | some (tag, args) =>
    let s1 := popLine l s
    match (if v.carriedOn l then refusal args s1 else some .lane) with
    | some r => done (emit (.reply l tag (.err r)) s1)
    | none => done (start tag s1)

/-- The checks of SETTINGS.SAVE and SETTINGS.CLEAR (R179, R181). -/
def storeRefusal (args : List Text) (s : State) : Option Reason :=
  if !args.isEmpty then some .args
  else if s.sst.runState ≠ .standby then some .state
  else if s.flashErasing then some .busy
  else none

/-- An accepted SETTINGS.SAVE (R179): the erase phase begins, and the flash holds no valid image until the save is
complete. -/
def startSave (tag : Byte) (s : State) : State :=
  let s1 : State := { s with ofp := { s.ofp with saveTag := some tag } }
  s1.setSst { s1.sst with runState := .saving, flash := .saving .erase, imageValid := false, held := .torn }

def execSettingsSave (l : Lane) (s : State) : Outcome := dispatchDeferred .settingsSave l storeRefusal startSave s

/-- The generation count after `g` (R179). -/
def nextGeneration (g : Nat) : Nat := if 4294967295 ≤ g then 1 else g + 1

/-- What a phase of a save, or an erase, does on the flash (R177, R179 to R181): the sectors it erases, or the bytes it
programs from an address on. How a phase falls into operations is the operand of SAVE_OPERATION_END (log 18). -/
inductive FlashWork where
  | erase (sectors : List Nat)
  | program (address : Nat) (bytes : List Byte)
  deriving DecidableEq, Repr

/-- The header's sector, and the sectors of a body of `n` bytes, which starts at address 001000h (R177). -/
def imageSectors (n : Nat) : List Nat := List.range (1 + (n + 4095) / 4096)

/-- What each phase writes of the image of generation `g` with contents `i` (R179). -/
def SavePhase.work (g : Nat) (i : SavedImage) : SavePhase → FlashWork
  | .erase => .erase (imageSectors (imageBody i).length)
  | .body => .program 0x1000 (imageBody i)
  | .header => .program 2 ((imageHeader g (imageBody i)).drop 2)
  | .version => .program 0 ((imageHeader g (imageBody i)).take 2)

/-- What the part is doing on the flash: the phase of the save in progress, written from the live tables with the next
generation (R179), or the erase of the header's sector (R180, R181). The operation of an abandoned save is one issued
before the reset, which the part has nothing more to do with than to let it end (R180). -/
def State.flashWork (s : State) : Option FlashWork :=
  match s.sst.flash with
  | .idle => none
  | .saving ph => if s.sst.abandoned then none else some (ph.work (nextGeneration s.sst.generation) (snapshot s))
  | .erasing _ => some (.erase [0])

/-- SST gives the deferred reply of the save, which OFP holds (R167). -/
def giveDeferred (r : Reply) (s : State) : State :=
  { s with ofp := { s.ofp with
      held := s.ofp.saveTag.map fun tag => .reply .m tag r
      saveTag := none } }

/-- The save completes (R179): VALID, the new generation, OK, STANDBY, and LUR's evaluation (R10). -/
def completeSave (s : State) : State :=
  let g := nextGeneration s.sst.generation
  let s1 := giveDeferred (.ok [fNum g]) s
  evaluateIfSet (s1.setSst { s1.sst with
    runState := .standby, flash := .idle, imageValid := true, generation := g, held := .image g (snapshot s) })

/-- What a save that fails in a phase leaves on the flash: "until the format version is programmed, the header reads as
no valid image" (R179), and whether a last operation that has not ended in time programmed it is known by reading
(log 17). -/
def SavePhase.failed : SavePhase → FlashHeld
  | .erase => .torn
  | .body => .torn
  | .header => .torn
  | .version => .asAttached

/-- The save fails in phase `ph` (R179): INVALID, ERR FLASH, STANDBY, and LUR's evaluation (R10). -/
def failSave (ph : SavePhase) (s : State) : State :=
  let s1 := giveDeferred (.err .flash) s
  evaluateIfSet (s1.setSst { s1.sst with
    runState := .standby, flash := .idle, imageValid := false, held := ph.failed })

/-- The phase after an operation's end, when the save goes on; `more` says that the erase or the body needs a further
operation (R179; log 18). -/
def SavePhase.after (more : Bool) : SavePhase → Option SavePhase
  | .erase => some (if more then .erase else .body)
  | .body => some (if more then .body else .header)
  | .header => some .version
  | .version => none

/-- The operation in progress of an abandoned save has ended: the header sector's erase is issued (R180). -/
def eraseAbandoned (s : State) : State :=
  s.setSst { s.sst with flash := .erasing .abandon, abandoned := false }

/-- SAVE_OPERATION_END (R179, R180). -/
def execSaveOperationEnd (more : Bool) (s : State) : Outcome :=
  match s.sst.flash with
  | .saving ph =>
    if s.sst.abandoned then done (eraseAbandoned s)
    else match ph.after more with
      | some next => done (s.setSst { s.sst with flash := .saving next })
      | none => done (completeSave s)
  | .idle => .next s
  | .erasing _ => .next s

/-- SAVE_OPERATION_TIMEOUT (R179, R180; log 19 for an abandoned save). -/
def execSaveOperationTimeout (s : State) : Outcome :=
  match s.sst.flash with
  | .saving ph => done (if s.sst.abandoned then eraseAbandoned s else failSave ph s)
  | .idle => .next s
  | .erasing _ => .next s

/-- ABANDON_ERASE_END: the erase has ended, or 2 s have passed (R180). -/
def execAbandonEraseEnd (s : State) : Outcome :=
  if s.sst.flash = .erasing .abandon then done (s.setSst { s.sst with flash := .idle }) else .next s

/-! ## Clearing (R181) -/

/-- An accepted SETTINGS.CLEAR (R181): the erase begins, and the lane waits with its reserved place (R167). What the
flash holds while the erase runs is known by reading it (log 17). -/
def startClear (tag : Byte) (s : State) : State :=
  let s1 : State := { s with ofp := { s.ofp with clearTag := some tag } }
  s1.setSst { s1.sst with flash := .erasing .clear, held := .asAttached }

def execSettingsClear (l : Lane) (s : State) : Outcome := dispatchDeferred .settingsClear l storeRefusal startClear s

/-- The erase of a SETTINGS.CLEAR is over: INVALID, IDLE, and the reply in the reserved place; "the next power-on loads
BLANK" (R167, R181). -/
def endClear (r : Reply) (s : State) : State :=
  let s1 := s.setSst { s.sst with flash := .idle, imageValid := false, held := .erased }
  match s1.ofp.clearTag with
  | none => s1
  | some tag => emit (.reply .m tag r) { s1 with ofp := { s1.ofp with clearTag := none } }

/-- CLEAR_ERASE_END (R181). -/
def execClearEraseEnd (s : State) : Outcome :=
  if s.sst.flash = .erasing .clear then done (endClear (.ok []) s) else .next s

/-- CLEAR_ERASE_TIMEOUT (R181). -/
def execClearEraseTimeout (s : State) : Outcome :=
  if s.sst.flash = .erasing .clear then done (endClear (.err .flash) s) else .next s

/-- The load result's word (R177). -/
def fLoadResult : LoadResult → Field
  | .loaded => fWord "LOADED"
  | .blank => fWord "BLANK"
  | .invalid => fWord "INVALID"

/-- A phase's letter (R181). -/
def SavePhase.letter : SavePhase → String
  | .erase => "E"
  | .body => "B"
  | .header => "H"
  | .version => "H"

/-- The flash activity, with the phase while SAVING (R181). -/
def flashFields : FlashActivity → List Field
  | .idle => [fWord "IDLE"]
  | .saving ph => [fWord "SAVING", fWord ph.letter]
  | .erasing _ => [fWord "ERASING"]

/-- SETTINGS.STATUS (R181). -/
def settingsStatusVerb (args : List Text) (s : State) : Reply :=
  match args with
  | [] => .ok ([fLoadResult s.sst.loadResult, fWord (if s.sst.imageValid then "VALID" else "INVALID"),
      if s.sst.generation = 0 then fDash else fNum s.sst.generation] ++ flashFields s.sst.flash)
  | _ => .err .args

def execSettingsStatus (l : Lane) (s : State) : Outcome := answer .settingsStatus l settingsStatusVerb s

end Sys2Proof.Machine
end

