-- ==== Sys2Proof/Machine/Reset.lean ====
section
/-! DEFINITION. The warm reset (R182) and its parts, block by block. -/

namespace Sys2Proof.Machine

/-- A save in progress is abandoned (R180): ERR ABORTED is given at the reset, before the operation in progress has run
to its end (the model's choice, log 19), the part leaves SAVING and LUR evaluates what fell due (R10, R175). -/
def abandonSave (s : State) : State :=
  if s.saving then
    let s1 := giveDeferred (.err .aborted) s
    evaluateIfSet (s1.setSst { s1.sst with runState := .standby, imageValid := false, abandoned := true })
  else s

/-- The attention set clear, enables kept (R169). -/
def clearAttention (s : State) : State := s.mapAttn Attn.cleared Kind.all

/-- A drop at the end of R136's third step: out of its outage, its last outage end now. -/
def Drop.outOfOutage (run : Word) (r : Drop) : Drop :=
  if r.outage.isSome then { r with outage := none, accrual := none, lastEnd := some run } else r

/-- Every drop's record is changed, drop by drop. -/
def mapDrops (f : Drop → Drop) (s : State) : State := s.dropKeys.foldl (fun s d => s.setDrop d (f (s.drop d))) s

/-- Every accruing drop's episode ends (R136, step 2). The spec gives the drops no order: the model takes them ascending,
so the lower drop's CREDIT has the lower sequence number, and the last drops' credit goes to pending when the journal
fills (log 47). -/
def endEpisodes (s : State) : State := s.dropKeys.foldl (fun s d => endEpisode d s) s

/-- OLZ at a warm reset (R136): the pass abandoned, episodes credited, numbers cleared, the log empty; the next number
kept. -/
def resetOutages (s : State) : State :=
  let s1 : State := { s with olz := { s.olz with settle := [], taken := [], cursor := 0, paused := false } }
  let s2 := mapDrops (Drop.outOfOutage s.tmb.run) (endEpisodes s1)
  { s2 with olz := { s2.olz with log := [], closedOrder := [] } }

/-- CSC and URX at a warm reset (R54). -/
def resetCarrier (s : State) : State :=
  { s with csc := { s.csc with windows := [], floor := 0 }, urx := ⟨none⟩ }

/-- AEN's queue and wave list emptied (R65, R86). -/
def resetQueue (s : State) : State := { s with aen := ⟨[], [], false, false⟩ }

/-- A unit at a warm reset (R105). -/
def PlantUnit.reset (r : PlantUnit) : PlantUnit :=
  if r.defined then r.settledTo (if r.cfg.inService then .unknown else .outOfService) else r

/-- PPL at a warm reset (R105, R117). -/
def resetPlant (s : State) : State :=
  let s1 := s.unitKeys.foldl (fun s u => s.setUnit u (s.unit u).reset) s
  { s1 with ppl := { s1.ppl with timer := 0, running := false, heldExpiry := false, cursor := 0, poll := none } }

/-- A drop that is not VACANT at a warm reset, CLOSING ones aside (R62). -/
def Drop.unsettled (r : Drop) : Drop :=
  { r with link := some .unconfirmed, attempts := 0, misses := 0, stale := false, parkOnClose := false }

/-- DTB resets drop `d` (R62). -/
def resetDrop (d : Nat) (s : State) : State :=
  let r := s.drop d
  if r.service = .vacant then s
  else if r.service = .closing then vacate d s
  else s.setDrop d r.unsettled

/-- DTB at a warm reset (R62). -/
def resetDrops (s : State) : State := s.dropKeys.foldl (fun s d => resetDrop d s) s

/-- RSW at a warm reset (R87). -/
def resetRefresh (s : State) : State := { s with rsw := ⟨0, false, 2047, [], false⟩ }

/-- A slot at a warm reset: latch clear, carried source UNKNOWN, fault clear (R1, R38). -/
def Slot.reset (r : Slot) : Slot := { r with latch := false, carried := none, fault := false }

/-- LUR at a warm reset: latches clear, the override ended without attention (R1, R18, R38). -/
def resetLineUp (s : State) : State :=
  let s1 := s.slotKeys.foldl (fun s k => s.setSlot k (s.slot k).reset) s
  s1.setOverride { s1.lur.override with active := false, ready := false }

/-- A source at a warm reset (R24). -/
def Source.reset (r : Source) : Source := { r with presence := .present, misses := 0, goods := 0 }

/-- SMN and MXP at a warm reset (R24, R38). -/
def resetMatrix (s : State) : State :=
  let s1 := (Table.keys s.smn.sources).foldl (fun s k => s.setSource k (s.source k).reset) s
  { s1 with mxp := ⟨[], none, false, .read⟩ }

/-- OFP at a warm reset, the attention set aside: inboxes discarded, identity flag clear; the output queue and a held
reply kept (R168, R172; log 35). -/
def resetOffice (s : State) : State :=
  { s with ofp := { s.ofp with inboxP := [], inboxM := [], inboxQ := [], compat := false } }

/-- The slots are resolved, the pages rebuilt, the orders queued and the ALL wave begun (R6, R20, R38, R86). -/
def resolveAfterReset (s : State) : State := startHead (appendWave .all (rebuildAll (resolveAllAfresh s)))

/-- Whether the attention that the reset's own credits raised is cleared with the rest: a free value (log 7). -/
def settleAttention (s : State) : State :=
  let s1 := if Config.attentionClearedLast s.draws then clearAttention s else s
  { s1 with draws := s1.draws + 1 }

/-- The warm reset (R182), in its fixed order. -/
def warmReset (s : State) : State :=
  let s1 := clearAttention (abandonSave s)
  let s2 := resetDrops (resetPlant (resetQueue (resetCarrier (resetOutages s1))))
  let s3 := resetMatrix (resetLineUp (resetRefresh s2))
  let s4 := resolveAfterReset (s3.setCarousel .cycle)
  settleAttention ((resetOffice s4).setRunState .standby)

/-- RESET (R182): the warm reset keeps the output queue, so its reply stands in the queue before a deferred one
whichever of the two is written down first. -/
def resetVerb (args : List Text) (s : State) : State × Reply :=
  match args with
  | [] => accept (warmReset s)
  | _ => refuse .args s

def execReset (l : Lane) (s : State) : Outcome := dispatch .reset l resetVerb s

end Sys2Proof.Machine
end

