-- ==== Sys2Proof/Machine/Dispatch.lean ====
section
/-! DEFINITION. The meaning of every command: one arm per constructor of `Instr`, one direct call each. -/

namespace Sys2Proof.Machine

/-- The command's effect on everything but the queue of commands. -/
def exec (i : Instr) (s : State) : Host.Outcome State Fault Refusal :=
    match i with
    | .powerOn => Sys2Proof.Machine.execPowerOn s
    | .loadEnd read => Sys2Proof.Machine.execLoadEnd read s
    | .lineReceived chars framing => Sys2Proof.Machine.execLineReceived chars framing s
    | .lineOverflow => Sys2Proof.Machine.execLineOverflow s
    | .lineSent => Sys2Proof.Machine.execLineSent s
    | .deferredReplyAppend => Sys2Proof.Machine.execDeferredReplyAppend s
    | .noticeAppend => Sys2Proof.Machine.execNoticeAppend s
    | .unknownVerb l => Sys2Proof.Machine.execUnknownVerb l s
    | .slotSet l => Sys2Proof.Machine.execSlotSet l s
    | .slotRead l => Sys2Proof.Machine.execSlotRead l s
    | .slotRestore l => Sys2Proof.Machine.execSlotRestore l s
    | .eventAdd l => Sys2Proof.Machine.execEventAdd l s
    | .eventCancel l => Sys2Proof.Machine.execEventCancel l s
    | .eventDelete l => Sys2Proof.Machine.execEventDelete l s
    | .eventRead l => Sys2Proof.Machine.execEventRead l s
    | .eventList l => Sys2Proof.Machine.execEventList l s
    | .emergencyOn l => Sys2Proof.Machine.execEmergencyOn l s
    | .emergencyOff l => Sys2Proof.Machine.execEmergencyOff l s
    | .carouselMode l => Sys2Proof.Machine.execCarouselMode l s
    | .carouselText l => Sys2Proof.Machine.execCarouselText l s
    | .carouselEnable l => Sys2Proof.Machine.execCarouselEnable l s
    | .carouselRead l => Sys2Proof.Machine.execCarouselRead l s
    | .sourceSet l => Sys2Proof.Machine.execSourceSet l s
    | .sourceRead l => Sys2Proof.Machine.execSourceRead l s
    | .sourceList l => Sys2Proof.Machine.execSourceList l s
    | .matrixStatus l => Sys2Proof.Machine.execMatrixStatus l s
    | .strayRead l => Sys2Proof.Machine.execStrayRead l s
    | .strayRearm l => Sys2Proof.Machine.execStrayRearm l s
    | .carrierStatus l => Sys2Proof.Machine.execCarrierStatus l s
    | .protectSet l => Sys2Proof.Machine.execProtectSet l s
    | .protectClear l => Sys2Proof.Machine.execProtectClear l s
    | .protectRead l => Sys2Proof.Machine.execProtectRead l s
    | .dropConnect l => Sys2Proof.Machine.execDropConnect l s
    | .dropTiers l => Sys2Proof.Machine.execDropTiers l s
    | .dropSuspend l => Sys2Proof.Machine.execDropSuspend l s
    | .dropResume l => Sys2Proof.Machine.execDropResume l s
    | .dropDisconnect l => Sys2Proof.Machine.execDropDisconnect l s
    | .dropReassign l => Sys2Proof.Machine.execDropReassign l s
    | .dropSend l => Sys2Proof.Machine.execDropSend l s
    | .dropRead l => Sys2Proof.Machine.execDropRead l s
    | .dropList l => Sys2Proof.Machine.execDropList l s
    | .authStatus l => Sys2Proof.Machine.execAuthStatus l s
    | .refreshStatus l => Sys2Proof.Machine.execRefreshStatus l s
    | .intakeMode l => Sys2Proof.Machine.execIntakeMode l s
    | .intakeStatus l => Sys2Proof.Machine.execIntakeStatus l s
    | .unitSet l => Sys2Proof.Machine.execUnitSet l s
    | .unitService l => Sys2Proof.Machine.execUnitService l s
    | .unitRead l => Sys2Proof.Machine.execUnitRead l s
    | .unitList l => Sys2Proof.Machine.execUnitList l s
    | .pollStatus l => Sys2Proof.Machine.execPollStatus l s
    | .outageDeclare l => Sys2Proof.Machine.execOutageDeclare l s
    | .outageEnd l => Sys2Proof.Machine.execOutageEnd l s
    | .outageRead l => Sys2Proof.Machine.execOutageRead l s
    | .outageList l => Sys2Proof.Machine.execOutageList l s
    | .journalRead l => Sys2Proof.Machine.execJournalRead l s
    | .journalRelease l => Sys2Proof.Machine.execJournalRelease l s
    | .journalStatus l => Sys2Proof.Machine.execJournalStatus l s
    | .periodClose l => Sys2Proof.Machine.execPeriodClose l s
    | .timeSet l => Sys2Proof.Machine.execTimeSet l s
    | .timeStatus l => Sys2Proof.Machine.execTimeStatus l s
    | .attnRead l => Sys2Proof.Machine.execAttnRead l s
    | .attnClear l => Sys2Proof.Machine.execAttnClear l s
    | .attnMask l => Sys2Proof.Machine.execAttnMask l s
    | .attnForce l => Sys2Proof.Machine.execAttnForce l s
    | .identify l => Sys2Proof.Machine.execIdentify l s
    | .identifyCompat l => Sys2Proof.Machine.execIdentifyCompat l s
    | .status l => Sys2Proof.Machine.execStatus l s
    | .paramSet l => Sys2Proof.Machine.execParamSet l s
    | .paramRead l => Sys2Proof.Machine.execParamRead l s
    | .run l => Sys2Proof.Machine.execRun l s
    | .stop l => Sys2Proof.Machine.execStop l s
    | .settingsSave l => Sys2Proof.Machine.execSettingsSave l s
    | .settingsClear l => Sys2Proof.Machine.execSettingsClear l s
    | .settingsStatus l => Sys2Proof.Machine.execSettingsStatus l s
    | .reset l => Sys2Proof.Machine.execReset l s
    | .saveOperationEnd more => Sys2Proof.Machine.execSaveOperationEnd more s
    | .saveOperationTimeout => Sys2Proof.Machine.execSaveOperationTimeout s
    | .abandonEraseEnd => Sys2Proof.Machine.execAbandonEraseEnd s
    | .clearEraseEnd => Sys2Proof.Machine.execClearEraseEnd s
    | .clearEraseTimeout => Sys2Proof.Machine.execClearEraseTimeout s
    | .slotBoundary => Sys2Proof.Machine.execSlotBoundary s
    | .secondAdvance => Sys2Proof.Machine.execSecondAdvance s
    | .refreshCounterExpiry => Sys2Proof.Machine.execRefreshCounterExpiry s
    | .emergencyExpiry => Sys2Proof.Machine.execEmergencyExpiry s
    | .alertDue => Sys2Proof.Machine.execAlertDue s
    | .pollCycleExpiry => Sys2Proof.Machine.execPollCycleExpiry s
    | .pollBegin => Sys2Proof.Machine.execPollBegin s
    | .pollCycleEnd => Sys2Proof.Machine.execPollCycleEnd s
    | .monitorSample => Sys2Proof.Machine.execMonitorSample s
    | .referenceReturn => Sys2Proof.Machine.execReferenceReturn s
    | .startupWindowClose => Sys2Proof.Machine.execStartupWindowClose s
    | .upstreamFrame bytes => Sys2Proof.Machine.execUpstreamFrame bytes s
    | .sampleDue => Sys2Proof.Machine.execSampleDue s
    | .matrixIssue => Sys2Proof.Machine.execMatrixIssue s
    | .activityReadAnswer counts => Sys2Proof.Machine.execActivityReadAnswer counts s
    | .activityReadTimeout => Sys2Proof.Machine.execActivityReadTimeout s
    | .switchAnswered => Sys2Proof.Machine.execSwitchAnswered s
    | .switchTimeout => Sys2Proof.Machine.execSwitchTimeout s
    | .lateMatrixAnswer => Sys2Proof.Machine.execLateMatrixAnswer s
    | .waveVisit => Sys2Proof.Machine.execWaveVisit s
    | .waveComplete => Sys2Proof.Machine.execWaveComplete s
    | .settlePassStart => Sys2Proof.Machine.execSettlePassStart s
    | .settleVisit => Sys2Proof.Machine.execSettleVisit s
    | .settlePassEnd => Sys2Proof.Machine.execSettlePassEnd s
    | .drainVisit => Sys2Proof.Machine.execDrainVisit s
    | .drainCircuitEnd => Sys2Proof.Machine.execDrainCircuitEnd s
    | .referenceEdge => Sys2Proof.Machine.execReferenceEdge s

end Sys2Proof.Machine
end

