-- ==== Sys2Proof/Safety.lean ====
section
/-! DEFINITION. The terms the statements are made in: the parts of the state and what it is to leave them alone, the
line and the reply of a dispatch, and the invariants of the block. -/

namespace Sys2Proof.Machine

/-- The next state of an outcome, if it is one. -/
def nextOf : Outcome → Option State
  | .next t => some t
  | .fault _ => none
  | .refused _ => none

/-! ## Parts of the state -/

/-- The parts of the state. `attn` is the attention set and `office` the rest of the Office Port; `marks` are the
readiness marks and `csc` the rest of the Carrier Scheduler; `queue` is the authorization queue and `waves` the wave
list with the engine's pause and owed visit. -/
inductive Part where
  | attn | office | tmb | smn | mxp | lur | crs | csc | marks | urx | dtb | queue | waves | rsw | pin | ppl | olz | bjn
  | sst | params | draws | pending
  deriving DecidableEq, Repr

/-- Two states agree on a part. -/
def Agree : Part → State → State → Prop
  | .attn, s, t => t.ofp.attn = s.ofp.attn
  | .office, s, t => { t.ofp with attn := [] } = { s.ofp with attn := [] }
  | .tmb, s, t => t.tmb = s.tmb
  | .smn, s, t => t.smn = s.smn
  | .mxp, s, t => t.mxp = s.mxp
  | .lur, s, t => t.lur = s.lur
  | .crs, s, t => t.crs = s.crs
  | .csc, s, t => { t.csc with marks := s.csc.marks } = s.csc
  | .marks, s, t => t.csc.marks = s.csc.marks
  | .urx, s, t => t.urx = s.urx
  | .dtb, s, t => t.dtb = s.dtb
  | .queue, s, t => t.aen.queue = s.aen.queue
  | .waves, s, t => { t.aen with queue := s.aen.queue } = s.aen
  | .rsw, s, t => t.rsw = s.rsw
  | .pin, s, t => t.pin = s.pin
  | .ppl, s, t => t.ppl = s.ppl
  | .olz, s, t => t.olz = s.olz
  | .bjn, s, t => t.bjn = s.bjn
  | .sst, s, t => t.sst = s.sst
  | .params, s, t => t.params = s.params
  | .draws, s, t => t.draws = s.draws
  | .pending, s, t => t.pending = s.pending

/-- Every part but the named ones is as it was. -/
def OnlyChanges (ps : List Part) (s t : State) : Prop := ∀ p, p ∉ ps → Agree p s t

/-! ## Lines and replies -/

/-- Lane `l` is about to dispatch a line that names verb `v`, on a lane that carries it (R166). -/
def Takes (v : Verb) (l : Lane) (tag : Byte) (args : List Text) (s : State) : Prop :=
  s.dispatching l v = some (tag, args) ∧ v.carriedOn l = true

/-- The line of lane `l` has left its inbox, and its reply stands at the tail of the output queue; nothing else of the
Office Port, the attention set aside, has changed (R166). -/
def Replied (l : Lane) (tag : Byte) (r : Reply) (s t : State) : Prop :=
  t.ofp.outQ = s.ofp.outQ ++ [.reply l tag r]
    ∧ (∀ k, t.ofp.inbox k = if k = l then (s.ofp.inbox k).tail else s.ofp.inbox k)
    ∧ t.ofp.held = s.ofp.held ∧ t.ofp.saveTag = s.ofp.saveTag ∧ t.ofp.clearTag = s.ofp.clearTag
    ∧ t.ofp.compat = s.ofp.compat

/-- The state after a reply that changes nothing else. -/
def answered (l : Lane) (tag : Byte) (r : Reply) (s : State) : State := emit (.reply l tag r) (popLine l s)

/-- The command answers `r` and changes nothing else. -/
def Answers (c : Instr) (l : Lane) (tag : Byte) (r : Reply) (s : State) : Prop := exec c s = .next (answered l tag r s)

/-- The command is carried out: it answers `r`, changes only the parts `ps` beside the Office Port's queues and the
readiness marks, and leaves a state in which `q` holds. -/
def Accepts (c : Instr) (l : Lane) (tag : Byte) (r : Reply) (s : State) (ps : List Part) (q : State → Prop) : Prop :=
  ∃ t, exec c s = .next t ∧ Replied l tag r s t ∧ OnlyChanges (.office :: .marks :: ps) s t ∧ q t

/-- The command is refused: it answers ERR with the reason word, and changes nothing else (the marks say again what the
owners' state gives, log 8). -/
def Refuses (c : Instr) (l : Lane) (tag : Byte) (why : Reason) (s : State) : Prop :=
  Accepts c l tag (.err why) s [] fun _ => True

/-- A verb's checks in their order, each with its reason word: the first that fails gives the reply, and when none fails
`ok` holds. A check is written as what makes it fail. -/
def Checked (c : Instr) (l : Lane) (tag : Byte) (s : State) : List (Prop × Reason) → Prop → Prop
  | [], ok => ok
  | (fails, why) :: rest, ok => (fails → Refuses c l tag why s) ∧ (¬fails → Checked c l tag s rest ok)

/-- BUSY in SAVING, then ARGS when the arguments do not read as `read`; otherwise `ok` of what they say. -/
def Parsed {α : Type} (c : Instr) (l : Lane) (tag : Byte) (s : State) (read : Option α) (ok : α → Prop) : Prop :=
  (s.sst.runState = .saving → Refuses c l tag .busy s)
    ∧ (s.sst.runState ≠ .saving → read = none → Refuses c l tag .args s)
    ∧ ∀ a, s.sst.runState ≠ .saving → read = some a → ok a

/-- One argument, read by `f`. -/
def one {α : Type} (f : Text → Option α) : List Text → Option α
  | [a] => f a
  | _ => none

/-- Two arguments, read by `f` and `g`. -/
def two {α β : Type} (f : Text → Option α) (g : Text → Option β) : List Text → Option (α × β)
  | [a, b] => (f a).bind fun x => (g b).map fun y => (x, y)
  | _ => none

/-- No argument. -/
def noArgs : List Text → Option Unit
  | [] => some ()
  | _ => none

/-- A verb whose reply comes later is carried out: its line leaves its inbox, `f` changes the Office Port, and of the
rest only the parts `ps` and the readiness marks change. -/
def Begins (c : Instr) (l : Lane) (s : State) (ps : List Part) (f : Ofp → Ofp) (q : State → Prop) : Prop :=
  ∃ t, exec c s = .next t ∧ t.ofp = f (popLine l s).ofp ∧ OnlyChanges (.office :: .marks :: ps) s t ∧ q t

/-- A command without a reply is carried out: it changes only the parts `ps` beside the readiness marks, and leaves a
state in which `q` holds. -/
def Happens (c : Instr) (s : State) (ps : List Part) (q : State → Prop) : Prop :=
  ∃ t, exec c s = .next t ∧ OnlyChanges (.marks :: ps) s t ∧ q t

/-- The command of a verb whose line stands at the head of a lane's inbox. IDENTIFY COMPAT is `identifyCompat`. -/
def Verb.command : Verb → Lane → Instr
  | .slotSet => .slotSet
  | .slotRead => .slotRead
  | .slotRestore => .slotRestore
  | .eventAdd => .eventAdd
  | .eventCancel => .eventCancel
  | .eventDelete => .eventDelete
  | .eventRead => .eventRead
  | .eventList => .eventList
  | .emergencyOn => .emergencyOn
  | .emergencyOff => .emergencyOff
  | .carouselMode => .carouselMode
  | .carouselText => .carouselText
  | .carouselEnable => .carouselEnable
  | .carouselRead => .carouselRead
  | .sourceSet => .sourceSet
  | .sourceRead => .sourceRead
  | .sourceList => .sourceList
  | .matrixStatus => .matrixStatus
  | .strayRead => .strayRead
  | .strayRearm => .strayRearm
  | .carrierStatus => .carrierStatus
  | .protectSet => .protectSet
  | .protectClear => .protectClear
  | .protectRead => .protectRead
  | .dropConnect => .dropConnect
  | .dropTiers => .dropTiers
  | .dropSuspend => .dropSuspend
  | .dropResume => .dropResume
  | .dropDisconnect => .dropDisconnect
  | .dropReassign => .dropReassign
  | .dropSend => .dropSend
  | .dropRead => .dropRead
  | .dropList => .dropList
  | .authStatus => .authStatus
  | .refreshStatus => .refreshStatus
  | .intakeMode => .intakeMode
  | .intakeStatus => .intakeStatus
  | .unitSet => .unitSet
  | .unitService => .unitService
  | .unitRead => .unitRead
  | .unitList => .unitList
  | .pollStatus => .pollStatus
  | .outageDeclare => .outageDeclare
  | .outageEnd => .outageEnd
  | .outageRead => .outageRead
  | .outageList => .outageList
  | .journalRead => .journalRead
  | .journalRelease => .journalRelease
  | .journalStatus => .journalStatus
  | .periodClose => .periodClose
  | .timeSet => .timeSet
  | .timeStatus => .timeStatus
  | .attnRead => .attnRead
  | .attnClear => .attnClear
  | .attnMask => .attnMask
  | .attnForce => .attnForce
  | .identify => .identify
  | .status => .status
  | .paramSet => .paramSet
  | .paramRead => .paramRead
  | .run => .run
  | .stop => .stop
  | .settingsSave => .settingsSave
  | .settingsClear => .settingsClear
  | .settingsStatus => .settingsStatus
  | .reset => .reset

/-! ## Effects that several commands share, as the statements say them -/

/-- The journal behind records of these kinds written in turn (R141): each takes the next sequence number and the time
now. -/
def journalWith (bs : List JBody) (s : State) : Bjn :=
  { s.bjn with
    held := s.bjn.held
      ++ bs.zipIdx.map fun b => ⟨s.bjn.nextSeq + BitVec.ofNat 32 b.2, s.tmb.station, s.tmb.uncertain, b.1⟩
    nextSeq := s.bjn.nextSeq + BitVec.ofNat 32 bs.length }

/-- Records of these kinds have been written in turn (R141, R144): of the attention set only JOURNAL and JFULL can have
changed. -/
def Wrote (bs : List JBody) (s t : State) : Prop :=
  t.bjn = journalWith bs s
    ∧ (∀ k, k ≠ .journal → k ≠ .jfull → t.attn k = s.attn k)
    ∧ t.attn .journal = (if 4096 - t.bjn.held.length ≤ s.params.journalWatermark then (s.attn .journal).raised
        else s.attn .journal)
    ∧ t.attn .jfull = (if 4096 - t.bjn.held.length = 0 then (s.attn .jfull).raised else s.attn .jfull)

/-- The minutes a drop's episode earns, when it ends now (R132). -/
def episodeMinutes (r : Drop) (s : State) : Nat :=
  match r.accrual with
  | none => 0
  | some since =>
    if s.params.creditThreshold * 60 ≤ (s.tmb.run - since).toNat then (s.tmb.run - since).toNat / 60 else 0

/-- The CREDIT record of a drop's episode that ends now, if it earns one (R132). -/
def episodeCredit (d : Nat) (r : Drop) (s : State) : List JBody :=
  match r.accrual with
  | none => []
  | some since =>
    if episodeMinutes r s = 0 then []
    else [.credit d r.account r.outage (some (s.tmb.station - (s.tmb.run - since))) (some s.tmb.station)
      (episodeMinutes r s) false]

/-- The drop and the queue after a non-urgent HOST request that has a place where it needs one (the table of R66). -/
def hostRequested (d : Nat) (r : Drop) (q : List QEntry) : Drop × List QEntry :=
  match r.link with
  | none => (r, q)
  | some .queued => (r, q)
  | some .awaiting => ({ r with stale := true }, q)
  | some .parked => (r, q)
  | some .settled => ifFree r
  | some .unconfirmed => ifFree r
where
  /-- The request of a SETTLED or UNCONFIRMED drop. -/
  ifFree (r : Drop) : Drop × List QEntry :=
    if r.outage.isSome then ({ r with link := some .parked }, q)
    else ({ r with link := some .queued, attempts := 0 }, q ++ [⟨d, false⟩])

/-- The queue after an urgent request for drop `d` (R66): an entry that is urgent already stays where it is, and any other
goes behind the last urgent one. -/
def urgentlyPlaced (d : Nat) (q : List QEntry) : List QEntry :=
  let rest := q.filter fun e => e.drop != d
  if q.any fun e => e.drop == d && e.urgent then q
  else rest.filter (fun e => e.urgent) ++ [⟨d, true⟩] ++ rest.filter fun e => !e.urgent

/-- The drop and the queue after the urgent request of a purchase, whose maker has seen a place or the drop QUEUED (the
table of R66). -/
def urgentlyRequested (d : Nat) (r : Drop) (q : List QEntry) : Drop × List QEntry :=
  match r.link with
  | none => (r, q)
  | some .queued => (r, urgentlyPlaced d q)
  | some .awaiting => ({ r with stale := true }, q)
  | some .parked => (r, q)
  | some .settled => ifFree
  | some .unconfirmed => ifFree
where
  /-- The request of a SETTLED or UNCONFIRMED drop. -/
  ifFree : Drop × List QEntry :=
    if r.outage.isSome then ({ r with link := some .parked }, q)
    else ({ r with link := some .queued, attempts := 0 },
      q.filter (fun e => e.urgent) ++ [⟨d, true⟩] ++ q.filter fun e => !e.urgent)

/-- The record a drop has once VACANT (R74). -/
def vacatedRecord (r : Drop) : Drop :=
  { Drop.blank with account := if 0 < r.pending then r.account else none, pending := r.pending }

/-- The reply to an accepted service verb: the drop's service and link states (R68). -/
def serviceWordsOf (r : Drop) : Reply :=
  .ok [fWord (serviceWord r.service), fOpt (fun k => fWord k.word) r.link]

/-- The kinds have been raised, and no other flag of the attention set has changed (R169). -/
def Raised (ks : List Kind) (s t : State) : Prop :=
  ∀ k, t.attn k = if k ∈ ks then (s.attn k).raised else s.attn k

/-- CRS has kept all but its pages. -/
def PagesOnly (s t : State) : Prop :=
  t.crs = { s.crs with mapPages := t.crs.mapPages, eventPages := t.crs.eventPages }

/-- MAP page `n` as CRS has it. -/
def State.mapPageHeld (s : State) (n : Nat) : List MapEntry := Table.get (fun _ => []) s.crs.mapPages n

/-- EVENTS page `n` as CRS has it. -/
def State.eventPageHeld (s : State) (n : Nat) : List PageEvent := Table.get (fun _ => []) s.crs.eventPages n

/-- The EVENTS page `n` has been built again, and no other (R20). -/
def RebuiltEvents (n : Nat) (s t : State) : Prop :=
  ∀ m, t.eventPageHeld m = if m = n then eventPage t n else s.eventPageHeld m

/-- Every drop but `d` is as it was, and so are the protection flags. -/
def OnlyDrop (d : Nat) (s t : State) : Prop := t.dtb.guards = s.dtb.guards ∧ ∀ j, j ≠ d → t.drop j = s.drop j

/-- The resolved source and the step of slot `k` are what its inputs give (R5; of two SHOWING events, log 51). -/
def Resolved (k : Nat) (t : State) : Prop := ((t.slot k).resolved, (t.slot k).step) = resolution t k

/-- Slot `k` has kept everything but its resolution. -/
def KeepsSlot (k : Nat) (s t : State) : Prop :=
  (t.slot k).cfg = (s.slot k).cfg ∧ (t.slot k).latch = (s.slot k).latch ∧ (t.slot k).carried = (s.slot k).carried
    ∧ (t.slot k).fault = (s.slot k).fault

/-- The queue after an order for each of the slots with its resolved source, in turn (R32). -/
def ordersPut (ks : List Nat) (t : State) (q : List Order) : List Order :=
  ks.foldl (fun q k => putOrderIn k (t.slot k).resolved q) q

/-- The slots that `p` names have been resolved again (R5, R6), and no other has changed: an enabled slot whose source
changed has an order in the matrix queue, and a map page is built again when a slot on it went to or from the slate
(R20, R32). -/
def Reresolved (p : Nat → Bool) (s t : State) : Prop :=
  (∀ k, if p k then Resolved k t ∧ KeepsSlot k s t else t.slot k = s.slot k)
    ∧ t.lur.events = s.lur.events ∧ t.lur.override = s.lur.override
    ∧ t.mxp = { s.mxp with queue := t.mxp.queue }
    ∧ t.mxp.queue = ordersPut
        (s.slotKeys.filter fun k => p k && (s.slot k).cfg.enabled && (t.slot k).resolved != (s.slot k).resolved) t
        s.mxp.queue
    ∧ PagesOnly s t
    ∧ (∀ k, p k = true → ((t.slot k).resolved == 0) ≠ ((s.slot k).resolved == 0) →
        t.mapPageHeld (mapPageOf k) = mapPage t (mapPageOf k))
    ∧ ∀ n, (∀ k, p k = true → mapPageOf k = n → ((t.slot k).resolved == 0) = ((s.slot k).resolved == 0)) →
        t.mapPageHeld n = s.mapPageHeld n

/-- The event in every entry has the state its times give at station time `now`, ENDED being final (R10); the entries
are otherwise as they were. -/
def EventsAt (now : Word) (s t : State) : Prop :=
  ∀ k, t.event k = (s.event k).map fun e =>
    if e.state = .ended then e else { e with state := eventStateAt true now e.cfg }

/-- The command takes its expiry, its ALERT and the cycle timer's expiry before it: nothing of the kind is owed at this
second (log 3). -/
def NothingOwed (s : State) : Prop := s.expiryDue = false ∧ s.alertIsDue = false ∧ s.cycleDue = false

/-! ## What a rule leaves, by name -/

/-- The override has ended (R18): ALERT readiness withdrawn, EMERGENCY attention, the slots resolved again. -/
def OverrideEnded (s t : State) : Prop :=
  Raised [.emergency] s t ∧ t.crs.eventPages = s.crs.eventPages
    ∧ Reresolved (fun k => !(s.slot k).cfg.exempt)
        (s.setOverride { s.lur.override with active := false, ready := false }) t

/-- The HOST request of a SETTLED or UNCONFIRMED drop in no outage would find no place (R66). -/
def NoPlaceFor (r : Drop) (s : State) : Prop :=
  (r.link = some .settled ∨ r.link = some .unconfirmed) ∧ r.outage = none ∧ 64 ≤ s.aen.queue.length

/-- The accrual of a drop that enters record `n`: the later of its open run second and the last outage end. -/
def accrualIn (n : Nat) (v : Service) (lastEnd : Option Word) (s : State) : Option Word :=
  if v = .active ∧ s.credits n then
    (s.record n).map fun o =>
      match lastEnd with
      | none => o.openRun
      | some e => if s.tmb.run - o.openRun ≤ s.tmb.run - e then o.openRun else e
  else none

/-- One drop more carries the record. -/
def Outage.oneMore (o : Outage) : Outage :=
  { o with affectedNow := o.affectedNow + 1, affectedPeak := max o.affectedPeak (o.affectedNow + 1) }

/-- One drop fewer carries the record. -/
def Outage.oneFewer (o : Outage) : Outage := { o with affectedNow := o.affectedNow - 1 }

/-- The poll record is gone: in RUN the cycle goes on behind its unit, and otherwise it is IDLE at 0 (R116; log 36). -/
def pollEnded (s : State) : Ppl :=
  if s.sst.runState = .run then { s.ppl with poll := none, cursor := s.ppl.cursor + 1 }
  else { s.ppl with poll := none, running := false, cursor := 0 }

/-- The log before the new record: full, it gives up the record that became CLOSED earliest (R120). -/
def logWithRoom (s : State) : Olz :=
  if s.olz.log.length < 64 then s.olz
  else match s.olz.closedOrder with
    | [] => s.olz
    | c :: rest => { s.olz with log := s.olz.log.filter (fun o => o.number != c), closedOrder := rest }

/-- The `i`-th outage number from `n` on, from 65535 to 1 (R120). -/
def numberAfter : Nat → Nat → Nat
  | 0, n => n
  | i + 1, n => numberAfter i (if 65535 ≤ n then 1 else n + 1)

/-- `n` is the first number from the next number on that no record of the log holds; a log of at most 64 records leaves
one among 65 (R120). -/
def FirstFree (s : State) (n : Nat) : Prop :=
  s.olz.log.length ≤ 64 → ∃ i, i ≤ 64 ∧ n = numberAfter i s.olz.nextNumber
    ∧ (∀ o ∈ (logWithRoom s).log, o.number ≠ n)
    ∧ ∀ j, j < i → ∃ o ∈ (logWithRoom s).log, o.number = numberAfter j s.olz.nextNumber

/-- OLZ after the opening of record `n` (R120, R127): the record stands last in the log, its number in the settle set. -/
def recordOpened (n : Nat) (kind : OutageKind) (credit : Bool) (root : Nat) (openRun : Word) (openStation : Option Word)
    (s : State) : Olz :=
  { logWithRoom s with
    log := (logWithRoom s).log
      ++ [⟨n, kind, credit, root, .opened, none, [], false, openRun, openStation, none, 0, 0⟩]
    nextNumber := if 65535 ≤ n then 1 else n + 1
    settle := insertNumber n s.olz.settle }

/-- A record that has become CLEARING (R119). -/
def Outage.endedAs (reason : CloseReason) (successors : List Nat) (more : Bool) (s : State) (o : Outage) : Outage :=
  { o with
    state := .clearing, reason := some reason, successors := successors, more := more
    closeStation := if s.tmb.timeSet then some s.tmb.station else none }

/-- The log has a free entry or a CLOSED record (R120). -/
def LogHasRoom (s : State) : Prop := s.olz.log.length < 64 ∨ s.olz.closedOrder ≠ []

/-- A root of an OPEN record of either kind lies on the path of `u`, `u` included (R122, R123). -/
def Rooted (s : State) (u : Nat) : Prop := ∃ v ∈ s.path u, ∃ o ∈ s.olz.log, o.state = .opened ∧ o.root = v

/-- Unit `u`'s unlogged flag has been written, and nothing else of PPL (R115). -/
def UnloggedWritten (u : Nat) (b : Bool) (s t : State) : Prop :=
  t.ppl = { s.ppl with units := t.ppl.units }
    ∧ ∀ v, t.unit v = if v = u then { s.unit u with unlogged := b } else s.unit v

/-- A SILENT record has been opened at `u` from the unit's missing since, and has absorbed the OPEN SILENT records below
it (R122). A SILENT unit has a missing since (R103); run seconds now stand in where a state no run reaches has none. -/
def SilentOpened (u : Nat) (s t : State) : Prop :=
  let since := ((s.unit u).missingSince).getD s.tmb.run
  ∃ n, FirstFree s n ∧ OnlyChanges [.olz, .attn] s t ∧ Raised [.outage] s t
    ∧ let o := recordOpened n .silent true u since
        (if s.tmb.timeSet then some (s.tmb.station - (s.tmb.run - since)) else none) s
      let absorbed := (o.log.filter fun x => x.state == .opened && x.kind == .silent && s.below x.root u).map
        fun x => x.number
      t.olz = { o with
        log := o.log.map fun x => if x.number ∈ absorbed then x.endedAs .absorbed [n] false s else x
        settle := absorbed.foldl (fun l k => insertNumber k l) o.settle }

/-- The records of a split have been opened at the roots in turn, each with the open run second and time of the record
`o` that ended, while the log had room; `ns` are their numbers (R124). -/
def SplitsOpened (o : Outage) : List Nat → List Nat → State → State → Prop
  | [], ns, s, t => ns = [] ∧ t = s
  | _ :: _, [], s, t => ¬LogHasRoom s ∧ t = s
  | u :: us, n :: ns, s, t => LogHasRoom s ∧ ∃ m, FirstFree s n ∧ OnlyChanges [.olz, .attn, .ppl] s m
      ∧ m.olz = recordOpened n .silent true u o.openRun o.openStation s ∧ Raised [.outage] s m
      ∧ UnloggedWritten u false s m ∧ SplitsOpened o us ns m t

/-- The units have been searched in turn for unlogged ones (R123). -/
def Searched : List Nat → State → State → Prop
  | [], s, t => t = s
  | u :: us, s, t =>
    let found := (s.unit u).state = .silent ∧ (s.unit u).unlogged = true ∧ ¬Rooted s u ∧ LogHasRoom s
    ∃ m, (found → ∃ v, SilentOpened u s v ∧ OnlyChanges [.ppl] v m ∧ UnloggedWritten u false v m) ∧ (¬found → m = s)
      ∧ Searched us m t

/-- The poll `p` is over (R116): its record has gone, then a change held through it is applied. -/
def pollOver (p : Poll) (s : State) : State :=
  let v : State := { s with ppl := pollEnded s }
  if p.heldChange then applyHeld p.unit v else v

/-- The declaration at `u` excuses unit `v` (R109). -/
def Excuses (s : State) (u v : Nat) : Prop :=
  (s.unit v).cfg.kind ≠ .none ∧ (s.unit v).cfg.inService = true ∧ s.atOrBelow v u = true

/-- The slots of the SHOWING events that begin or end at station time `now`, in entry order (R11). -/
def slotsTurned (now : Word) (s : State) : List Nat :=
  s.eventEntries.filterMap fun e =>
    let new := eventStateAt true now e.2.cfg
    if e.2.state ≠ .ended ∧ new ≠ e.2.state ∧ (e.2.state = .showing ∨ new = .showing) then some e.2.cfg.slot else none

/-- LUR has evaluated every event at station time `now` (R10, R11): the orders and the waves stand in the order of the
entries (log 20). -/
def EventsEvaluated (now : Word) (s t : State) : Prop :=
  let changes := fun e : Event => e.state ≠ .ended ∧ eventStateAt true now e.cfg ≠ e.state
  let turned := slotsTurned now s
  let slated := fun k => ((t.slot k).resolved == 0) ≠ ((s.slot k).resolved == 0)
  EventsAt now s t ∧ t.lur.override = s.lur.override ∧ t.aen = { s.aen with waves := t.aen.waves } ∧ PagesOnly s t
    ∧ t.mxp = { s.mxp with queue := t.mxp.queue }
    ∧ ((∃ k e, s.event k = some e ∧ changes e) → Raised [.event] s t)
    ∧ ((¬∃ k e, s.event k = some e ∧ changes e) → Raised [] s t ∧ t.lur = s.lur ∧ t.mxp = s.mxp ∧ t.crs = s.crs)
    ∧ (∀ j, if j ∈ turned then Resolved j t ∧ KeepsSlot j s t else t.slot j = s.slot j)
    ∧ t.mxp.queue = ordersPut
        (turned.filter fun k => (s.slot k).cfg.enabled && (t.slot k).resolved != (s.slot k).resolved) t s.mxp.queue
    ∧ (∀ k, k ∈ turned → slated k → t.mapPageHeld (mapPageOf k) = mapPage t (mapPageOf k))
    ∧ (∀ n, (∀ k, k ∈ turned → mapPageOf k = n → ¬slated k) → t.mapPageHeld n = s.mapPageHeld n)
    ∧ (∀ k e, s.event k = some e → changes e → t.eventPageHeld (k / 8) = eventPage t (k / 8))
    ∧ (∀ n, (∀ k e, s.event k = some e → changes e → k / 8 ≠ n) → t.eventPageHeld n = s.eventPageHeld n)
    ∧ t.aen.waves = (s.eventEntries.filterMap fun e =>
        if e.2.state ≠ .ended ∧ eventStateAt true now e.2.cfg = .ended then some e.2.cfg.id else none).foldl
          (fun ws id => appendedWaves (.event id) ws) s.aen.waves

/-- An erase runs, or the operation of an abandoned save (R179 to R181). -/
def FlashErases (s : State) : Prop := s.sst.abandoned = true ∨ ∃ c, s.sst.flash = .erasing c

/-- OFP holds the save's reply (R167). -/
def ReplyGiven (r : Reply) (s t : State) : Prop :=
  t.ofp.held = s.ofp.saveTag.map (fun tag => .reply .m tag r) ∧ t.ofp.saveTag = none ∧ t.ofp.outQ = s.ofp.outQ
    ∧ (∀ l, t.ofp.inbox l = s.ofp.inbox l) ∧ t.ofp.clearTag = s.ofp.clearTag ∧ t.ofp.compat = s.ofp.compat

/-- LUR has evaluated what fell due in SAVING (R10). -/
def EvaluatesAfterSave (s t : State) : Prop :=
  if s.tmb.timeSet then EventsEvaluated s.tmb.station s t
  else OnlyChanges [.sst, .office, .marks, .attn] s t ∧ Raised [] s t

/-- The load ends with a result, a generation and an image, or none. -/
def Loads (r : FlashRead) (s : State) (res : LoadResult) (g : Nat) (image : Option SavedImage) : Prop :=
  let i := image.getD blankImage
  let u := loadTables i s
  Happens (.loadEnd r) s [.sst, .params, .smn, .lur, .mxp, .crs, .ppl, .dtb, .pin, .bjn, .waves] fun t =>
    t.sst = { s.sst with
        runState := .standby, loadResult := res, imageValid := image.isSome, generation := g
        held := match image with
          | none => (match s.sst.held with
              | .image _ _ => .asAttached
              | h => h)
          | some x => .image g x }
      ∧ t.params = i.params ∧ t.smn = u.smn ∧ t.ppl = u.ppl ∧ t.dtb = u.dtb ∧ t.pin = ⟨i.intake⟩
      ∧ (∀ k, t.slot k = { u.slot k with resolved := (t.slot k).resolved, step := (t.slot k).step } ∧ Resolved k t)
      ∧ (∀ k, t.event k = (u.event k).map fun e => { e with endedBeforeAll := decide (e.state = .ended) })
      ∧ t.lur.override = s.lur.override
      ∧ t.mxp = { s.mxp with
          queue := (t.slotKeys.filter fun k => (t.slot k).cfg.enabled).map fun k => ⟨k, (t.slot k).resolved⟩ }
      ∧ t.crs = { u.crs with mapPages := t.crs.mapPages, eventPages := t.crs.eventPages }
      ∧ (∀ n, n < 10 → t.mapPageHeld n = mapPage t n) ∧ (∀ n, n < 4 → t.eventPageHeld n = eventPage t n)
      ∧ t.aen = { s.aen with waves := [⟨.all, true, 0⟩] }
      ∧ t.bjn = ⟨i.journal, i.nextSeq, i.period, 0, t.bjn.drainLeft⟩
      ∧ ((i.journal.length < 4096 ∧ ∃ d, 0 < (t.drop d).pending) → t.bjn.drainLeft = some 2048)
      ∧ (¬(i.journal.length < 4096 ∧ ∃ d, 0 < (t.drop d).pending) → t.bjn.drainLeft = none)

/-- The number of the slot that begins (R40). -/
def slotAfter (s : State) : Word :=
  match s.csc.slotNumber with
  | none => 0
  | some n => n + 1

/-- The refresh counter after the boundary's count (R88), which REFRESH_COUNTER_EXPIRY may have taken (log 4). -/
def refreshCounted (s : State) : Rsw :=
  if s.rsw.counted then { s.rsw with counted := false }
  else if s.sst.runState = .loading then s.rsw
  else if s.params.refreshStep ≤ s.rsw.counter + 1 then { s.rsw with counter := 0, request := true }
  else { s.rsw with counter := s.rsw.counter + 1 }

/-- The Timebase after one boundary more (R154): a phase that reaches 250 is 0 again, and a second advance is due (that it
comes as a command of its own: log 3). -/
def phaseCounted (m : Tmb) : Tmb :=
  if m.phase < 249 then { m with phase := m.phase + 1 } else { m with phase := 0, advanceDue := true }

/-- The carousel after entry `e` has been sent (R21, R22): the cursor, and the end of a circuit in BURST. -/
def CarouselSent (e : Nat) (s t : State) : Prop :=
  let more := (List.range 16).any fun k => decide (e < k) && s.eligibleEntry k
  match s.crs.mode with
  | .hold _ => t.crs = s.crs ∧ Raised [] s t
  | .stopped => t.crs = s.crs ∧ Raised [] s t
  | .cycle => t.crs = { s.crs with cursor := if more then e + 1 else 0 } ∧ Raised [] s t
  | .burst _ =>
    if more then t.crs = { s.crs with cursor := e + 1 } ∧ Raised [] s t
    else if 1 < s.crs.burst then t.crs = { s.crs with cursor := 0, burst := s.crs.burst - 1 } ∧ Raised [] s t
    else t.crs = { s.crs with cursor := 0, burst := s.crs.burst - 1, mode := .stopped } ∧ Raised [.carousel] s t

/-! ## A slot boundary: the misses, and the grant -/

/-- What an AUTH window's miss leaves (R79, in the order of its table): nothing for a VACANT drop, PARKED by
park-on-close, a request for a stale drop or one with tries left, UNCONFIRMED or VACANT. -/
def AuthMissed (d : Nat) (s t : State) : Prop :=
  let r := s.drop d
  let asks := r.stale = true ∨ r.attempts < s.params.authTries
  let left : Drop := { r with link := some .unconfirmed, stale := false }
  OnlyChanges [.dtb, .queue, .attn, .olz] s t ∧ OnlyDrop d s t
    ∧ ((r.service = .closing → r.outage = none) → t.olz = s.olz)
    ∧ (r.service = .vacant → t.drop d = r ∧ t.aen.queue = s.aen.queue ∧ Raised [] s t)
    ∧ (r.service ≠ .vacant → r.parkOnClose = true → t.aen.queue = s.aen.queue ∧ Raised [] s t
        ∧ t.drop d = { r with link := some .parked, parkOnClose := false, stale := false, attempts := 0 })
    ∧ (r.service ≠ .vacant → r.parkOnClose = false → asks → r.outage ≠ none →
        t.aen.queue = s.aen.queue ∧ Raised [] s t ∧ t.drop d = { left with link := some .parked })
    ∧ (r.service ≠ .vacant → r.parkOnClose = false → asks → r.outage = none → s.aen.queue.length < 64 →
        t.aen.queue = s.aen.queue ++ [⟨d, false⟩] ∧ Raised [] s t
          ∧ t.drop d = { left with link := some .queued, attempts := if r.stale then 0 else r.attempts })
    ∧ (r.service ≠ .vacant → r.parkOnClose = false → (asks → r.outage = none ∧ 64 ≤ s.aen.queue.length) →
        t.aen.queue = s.aen.queue ∧ Raised [.auth] s t
          ∧ t.drop d = if r.service = .closing then vacatedRecord r else left)

/-- What a REFRESH window's miss leaves (R93, in the order of its table; R94 for the record of the outstanding list,
whose link state is the one before the send): nothing for a VACANT drop, PARKED in an outage or by park-on-close, a
request for a stale drop, UNCONFIRMED or VACANT at REFRESH_MISSES, and otherwise the link state before the send. -/
def RefreshMissed (d : Nat) (s t : State) : Prop :=
  let r := s.drop d
  let n := min 15 (r.misses + 1)
  let reached := s.params.refreshMisses ≤ n
  let asked : Drop := { r with misses := n, stale := false, link := some .unconfirmed }
  let parks := r.outage ≠ none ∨ r.parkOnClose = true
  OnlyChanges [.dtb, .queue, .attn, .rsw] s t ∧ OnlyDrop d s t
    ∧ t.rsw = { s.rsw with outstanding := s.rsw.outstanding.filter fun o => o.drop != d }
    ∧ (r.service = .vacant → t.drop d = r ∧ t.aen.queue = s.aen.queue ∧ Raised [] s t)
    ∧ (r.service ≠ .vacant → parks → t.aen.queue = s.aen.queue ∧ Raised [] s t
        ∧ t.drop d = { r with link := some .parked, parkOnClose := false, stale := false })
    ∧ (r.service ≠ .vacant → ¬parks → r.stale = true → s.aen.queue.length < 64 →
        t.aen.queue = s.aen.queue ++ [⟨d, false⟩] ∧ Raised (if reached then [.refresh] else []) s t
          ∧ t.drop d = { asked with link := some .queued, attempts := 0 })
    ∧ (r.service ≠ .vacant → ¬parks → r.stale = true → 64 ≤ s.aen.queue.length → t.aen.queue = s.aen.queue
        ∧ Raised (if r.service = .closing then (if reached then [.auth, .refresh] else [.auth]) else [.refresh]) s t
        ∧ t.drop d = if r.service = .closing then vacatedRecord r else asked)
    ∧ (r.service ≠ .vacant → ¬parks → r.stale = false → reached → r.link = some .awaiting →
        t.aen.queue = s.aen.queue ∧ Raised (if r.service = .closing then [.auth] else [.refresh]) s t
          ∧ t.drop d = if r.service = .closing then vacatedRecord r
            else { r with misses := n, link := some .unconfirmed })
    ∧ ∀ o, s.rsw.outstanding.find? (fun o => o.drop == d) = some o →
        r.service ≠ .vacant → ¬parks → r.stale = false → ¬reached →
        t.aen.queue = s.aen.queue ∧ Raised [] s t ∧ t.drop d = { r with misses := n, link := some o.link }

/-- What a POLL window's miss leaves (R114, R116, R117): nothing when the window is not that of the poll record; the next
attempt; the end of a poll with a change held or out of RUN, with no cycle counted; or, on the last attempt, a missed
cycle, with PLANT and OLZ's report on entry to SILENT, and the end of the poll. -/
def PollMissed (w : Window) (s t : State) : Prop :=
  let owns := fun p : Poll => p.windowOpen = true ∧ p.unit = w.owner ∧ p.address = w.address
  ((∀ p, s.ppl.poll = some p → ¬owns p) → t = s)
    ∧ ∀ p, s.ppl.poll = some p → owns p →
        (p.attempt < p.allowed → p.heldChange = false → s.sst.runState = .run →
          t = { s with ppl := { s.ppl with poll := some { p with attempt := p.attempt + 1, windowOpen := false } } })
        ∧ (p.attempt < p.allowed → (p.heldChange = true ∨ s.sst.runState ≠ .run) → t = pollOver p s)
        ∧ (p.allowed ≤ p.attempt →
            let r := s.unit p.unit
            let n := min 15 (r.missed + 1)
            let silent := r.state = .silent ∨ s.params.silentCycles ≤ n
            let enters := silent ∧ r.state ≠ .silent
            ∃ m, OnlyChanges [.ppl, .attn] s m ∧ m.ppl = { s.ppl with units := m.ppl.units }
              ∧ (∀ v, m.unit v = if v = p.unit then { r with
                    missed := n, missingSince := if r.missed = 0 then some p.firstRun else r.missingSince
                    state := if silent then .silent else .missing }
                  else s.unit v)
              ∧ (enters → Raised [.plant] s m ∧ t = pollOver p (enteredSilent p.unit m))
              ∧ (¬enters → Raised [] s m ∧ t = pollOver p m))

/-- The boundary's refresh count has been taken and the windows due have closed, their misses handed to their owners in
opening order (R46, R88). -/
def missesTaken (s : State) : State :=
  (s.csc.windows.filter fun w => some w.closing == s.csc.slotNumber).foldl (fun u w => handMiss w u)
    { s with
      rsw := refreshCounted s
      csc := { s.csc with windows := s.csc.windows.filter fun w => some w.closing != s.csc.slotNumber } }

/-- FILLER begins the next slot (R40, R41), the phase is counted (R154), and a part in STOPPING without windows has gone
to STANDBY (R53). -/
def FillerBegun (m t : State) : Prop :=
  OnlyChanges [.csc, .marks, .tmb, .sst] m t
    ∧ t.csc = { m.csc with
        slotNumber := some (slotAfter m), granted := none, frame := some ⟨0x00#8, allTerminals, []⟩
        marks := t.csc.marks }
    ∧ t.tmb = phaseCounted m.tmb
    ∧ t.sst = if m.sst.runState = .stopping ∧ m.csc.windows = [] then { m.sst with runState := .standby } else m.sst

/-- What sender `x` could be granted for now (R42, R43, R45): a frame to send, and for a reply window fewer than three
open and none to the address. -/
def mayTake (m : State) (x : Sender) : Bool :=
  let free := fun a : Addr => decide (m.csc.windows.length < 3) && m.csc.windows.all fun w => w.address != a
  match x with
  | .alert => m.lur.override.active && m.lur.override.ready
  | .carousel => m.nextEntry.isSome
  | .authorize => (m.offered .authorize).any free
  | .poll => (m.offered .poll).any free
  | .refresh => (m.offered .refresh).any free

/-- The senders in rank order, the carousel promoted once the floor count has reached CAROUSEL_FLOOR (R43, R44). -/
def senderRanks (m : State) : List Sender :=
  [.alert] ++ (if m.params.carouselFloor ≤ m.csc.floor then [.carousel] else [])
    ++ [.authorize, .poll, .refresh, .carousel]

/-- The grant of the next slot in RUN on the readiness `held` (R42 to R45, R21, R57, R67, R91, R112): the first sender in
rank order that is ready and may take it, what its owner does, its frame, the window, and the floor count. A refresh
request that is reached with no eligible drop is consumed unsent (R91). -/
def GrantTaken (held : Sender → Bool) (m t : State) : Prop :=
  let n := slotAfter m
  let g := (senderRanks m).find? fun x => held x && mayTake m x
  let unsent := held .refresh = true ∧ m.rsw.request = true ∧ m.candidate = none ∧ m.csc.windows.length < 3
    ∧ (g = none ∨ (g = some .carousel ∧ m.csc.floor < m.params.carouselFloor))
  let slot := fun (f : Frame) (ws : List Window) =>
    t.csc = { m.csc with
        slotNumber := some n, granted := g, frame := some f, windows := ws, marks := t.csc.marks
        floor := if g = some .carousel then 0 else min 250 (m.csc.floor + 1) }
      ∧ t.tmb = phaseCounted m.tmb
  let only := fun ps : List Part => OnlyChanges ([.csc, .marks, .tmb, .draws] ++ ps) m t
  (g = none ∨ g = some .carousel → t.rsw = if unsent then { m.rsw with request := false } else m.rsw)
    ∧ (g = none → only [.rsw] ∧ slot ⟨0x00#8, allTerminals, []⟩ m.csc.windows)
    ∧ (g = some .alert → only [.lur] ∧ slot (alertFrame m) m.csc.windows
        ∧ t.lur = { m.lur with override := { m.lur.override with ready := false } })
    ∧ (∀ e, g = some .carousel → m.nextEntry = some e →
        only [.crs, .attn, .rsw] ∧ slot (carouselFrame m e) m.csc.windows ∧ CarouselSent e m t)
    ∧ (∀ q qs a, g = some .authorize → m.aen.queue = q :: qs → (m.drop q.drop).address = some a →
        only [.queue, .dtb]
          ∧ slot ⟨0x01#8, a, authorizationOf t (t.drop q.drop)⟩ (m.csc.windows ++ [⟨a, .auth, q.drop, n, n + 3⟩])
          ∧ t.aen.queue = qs ∧ OnlyDrop q.drop m t
          ∧ t.drop q.drop = { m.drop q.drop with
              link := some .awaiting, attempts := (m.drop q.drop).attempts + 1 })
    ∧ (∀ p, g = some .poll → m.ppl.poll = some p →
        only [.ppl]
          ∧ slot ⟨0x03#8, p.address, [BitVec.ofNat 8 p.attempt]⟩
            (m.csc.windows ++ [⟨p.address, .poll, p.unit, n, n + 3⟩])
          ∧ t.ppl = { m.ppl with poll := some { p with
              windowOpen := true, firstRun := if p.attempt = 1 then m.tmb.run else p.firstRun } })
    ∧ ∀ d a k, g = some .refresh → m.candidate = some d → (m.drop d).address = some a → (m.drop d).link = some k →
        only [.dtb, .rsw]
          ∧ slot ⟨0x02#8, a, authorizationOf t (t.drop d)⟩ (m.csc.windows ++ [⟨a, .refresh, d, n, n + 3⟩])
          ∧ t.rsw = { m.rsw with cursor := d, request := false, outstanding := m.rsw.outstanding ++ [⟨d, k⟩] }
          ∧ OnlyDrop d m t ∧ t.drop d = { m.drop d with link := some .awaiting }

/-! ## Answers and samples -/

/-- PIN's judgment of a purchase of `p` by drop `d` (the table of R98, the first row that holds). -/
def verdictOn (d p : Nat) (s : State) : Verdict :=
  let r := s.drop d
  let onSale := (s.findEvent p).any fun e => e.2.state == .ordering || e.2.state == .showing
  if s.pin.mode = .refuse then .denied
  else if s.pin.mode = .defer ∨ 4096 - s.bjn.held.length ≤ 256 then .deferred
  else if onSale = false then .denied
  else if r.service ≠ .active then .denied
  else if p ∈ r.events then .repeated
  else if 4 ≤ r.events.length then .denied
  else if 64 ≤ s.aen.queue.length ∧ r.link ≠ some .queued then .deferred
  else .taken

/-- SMN reports what a sample made of source `k` (R30): a loss, from RETURNING or not, or a return. -/
def presenceReported (k : Nat) (before after : Presence) (u : State) : State :=
  if after = .lost ∧ before ≠ .lost then sourceLost k (decide (before ≠ .returning)) (raise .source u)
  else if after = .present ∧ (before = .lost ∨ before = .returning) then sourceReturned k (raise .source u)
  else u

/-- The fallback latch of each slot that `p` names has become `b`, and nothing else of the line-up (R7, R8). -/
def LatchesWritten (p : Nat → Prop) [DecidablePred p] (b : Bool) (s t : State) : Prop :=
  OnlyChanges [.lur] s t ∧ t.lur.events = s.lur.events ∧ t.lur.override = s.lur.override
    ∧ ∀ j, t.slot j = if p j then { s.slot j with latch := b } else s.slot j

/-- A well-formed ACK (R47). -/
def IsAck (f : Frame) : Prop := f.kind = 0x81#8 ∧ f.body.length = 1

/-- A well-formed STATUS (R47). -/
def IsStatus (f : Frame) : Prop := f.kind = 0x82#8
  ∧ ∃ a b c, f.body = [a, b, c] ∧ a.toNat ≤ 2 ∧ b.toNat ≤ 2 ∧ -30 ≤ c.toInt ∧ c.toInt ≤ 50

/-- The frame is a stray with cause `c` (R47, R48). -/
def IsStray (f : Frame) (s : State) : StrayCause → Prop
  | .foreign => f.kind ≠ 0x81#8 ∧ f.kind ≠ 0x82#8
  | .form => (f.kind = 0x81#8 ∨ f.kind = 0x82#8) ∧ ¬IsAck f ∧ ¬IsStatus f
  | .noWindow => (IsAck f ∨ IsStatus f) ∧ ∀ w ∈ s.csc.windows, w.address ≠ f.address
  | .early => (IsAck f ∨ IsStatus f) ∧ ∃ w, s.windowOf f.address = some w ∧ some w.frameSlot = s.csc.slotNumber
  | .kind => ∃ w, s.windowOf f.address = some w ∧ some w.frameSlot ≠ s.csc.slotNumber
      ∧ ((IsAck f ∧ w.kind = .poll) ∨ (IsStatus f ∧ w.kind ≠ .poll))

/-- The part takes answers, and `w` is the window that carries its address, opened before the slot in progress. -/
def AwaitsAnswer (w : Window) (s : State) : Prop :=
  (s.sst.runState = .run ∨ s.sst.runState = .stopping) ∧ s.windowOf w.address = some w
    ∧ some w.frameSlot ≠ s.csc.slotNumber

/-- The window has closed; the last one takes a part in STOPPING to STANDBY (R49, R53). -/
def WindowClosed (w : Window) (s t : State) : Prop :=
  let ws := s.csc.windows.filter fun x => x.address != w.address
  t.csc = { s.csc with windows := ws, marks := t.csc.marks }
    ∧ t.sst = if s.sst.runState = .stopping ∧ ws = [] then { s.sst with runState := .standby } else s.sst

/-- The drop after an ACK that settles it (R78, R92). A stale one is asked for again from here. -/
def settledDrop (s : State) (r : Drop) : Drop :=
  { r with
    link := some .settled, stale := false, attempts := 0, misses := 0, parkOnClose := false
    lastConfirmed := if s.tmb.timeSet then some s.tmb.station else r.lastConfirmed }

/-- A monitored source after one sample (the table of R29). -/
def sampledSource (p : Params) (good : Bool) (r : Source) : Source :=
  match r.presence, good with
  | .present, true => r
  | .present, false =>
    if 1 < p.lossSamples then { r with presence := .doubtful, misses := 1, goods := 0 }
    else { r with presence := .lost, misses := 0, goods := 0 }
  | .doubtful, true => { r with presence := .present, misses := 0 }
  | .doubtful, false =>
    if r.misses + 1 < p.lossSamples then { r with misses := r.misses + 1 }
    else { r with presence := .lost, misses := 0 }
  | .lost, false => r
  | .lost, true =>
    if 1 < p.returnSamples then { r with presence := .returning, misses := 0, goods := 1 }
    else { r with presence := .present, misses := 0, goods := 0 }
  | .returning, false => { r with presence := .lost, goods := 0 }
  | .returning, true =>
    if r.goods + 1 < p.returnSamples then { r with goods := r.goods + 1 }
    else { r with presence := .present, goods := 0 }

/-- The background passes advance (R83, R127, R149). -/
def Advances (s : State) : Prop := s.sst.runState = .standby ∨ s.sst.runState = .run ∨ s.sst.runState = .stopping

/-- A pass has started: the settle set is taken, each record with whether it was CLEARING (R127). -/
def passStarted (s : State) (o : Olz) : Olz :=
  { o with
    taken := o.settle.map fun n => (n, (s.record n).any fun r => r.state == .clearing)
    settle := [], cursor := 0, paused := false }

/-! ## Invariants -/

/-- CSC's marks say what the owners' state gives (R42). -/
def MarksCurrent (s : State) : Prop := s.csc.marks = s.owedMarks

/-- Every sparse table is in its canonical form (log 9). -/
def TablesCanonical (s : State) : Prop :=
  Table.wf Source.blank s.smn.sources ∧ Table.wf Slot.blank s.lur.slots ∧ Table.wf (fun _ => none) s.lur.events
    ∧ Table.wf (fun _ => true) s.crs.enables ∧ Table.wf (fun _ => []) s.crs.mapPages
    ∧ Table.wf (fun _ => []) s.crs.eventPages ∧ Table.wf (fun _ => Drop.blank) s.dtb.drops
    ∧ Table.wf (fun _ => false) s.dtb.guards ∧ Table.wf (fun _ => PlantUnit.blank) s.ppl.units
    ∧ Table.wf (fun _ => Attn.initial) s.ofp.attn

/-- At most three windows are open, and no two carry the same address (R45). -/
def WindowsSound (s : State) : Prop :=
  s.csc.windows.length ≤ 3 ∧ (s.csc.windows.map fun w => w.address).Nodup

/-- A kind is due in a notice only while pending, enabled and not announced, and is announced only while pending (R169
to R171). -/
def AttentionSound (s : State) : Prop :=
  ∀ k, ((s.attn k).due = true → (s.attn k).pending = true ∧ (s.attn k).enabled = true ∧ (s.attn k).announced = false)
    ∧ ((s.attn k).announced = true → (s.attn k).pending = true)

/-- The output queue, with a place reserved for a SETTINGS.CLEAR, holds at most 16 lines, and an inbox at most 4 (R165,
R167). -/
def OfficeBounded (s : State) : Prop :=
  s.ofp.outQ.length + (if s.ofp.clearTag.isSome then 1 else 0) ≤ 16 ∧ ∀ l, (s.ofp.inbox l).length ≤ 4

/-- At most 4096 records are held, and their sequence numbers run without a gap up to the next sequence less 1 (R139). -/
def JournalSound (s : State) : Prop := s.bjn.held.length ≤ 4096 ∧ seqFits s.bjn.nextSeq s.bjn.held = true

end Sys2Proof.Machine
end

