-- ==== Sys2Proof/Certificates/Slice0/Obligations.lean ====
section
/-! DEFINITION. The statements for the provers. -/

open Sys2Proof Sys2Proof.Machine

/-! ## The step and every command -/

/-- A step is the command at the front of the queue, run on the state with the queue's rest. -/
def Obligations.StepRunsFrontCommand : Prop :=
  ∀ (c : Instr) (rest : List Instr) (s : State),
    step { s with pending := c :: rest } = exec c { s with pending := rest }

/-- With no command waiting the block idles: the model's choice (log 1). -/
def Obligations.StepIdlesOnEmptyQueue : Prop := ∀ s : State, s.pending = [] → step s = .next s

/-- Every command of the table gives a next state, in every state, and leaves the waiting commands alone; a term that
is no command of the table is refused by name (log 2, 31: the model's choice). -/
def Obligations.EveryCommandCompletes : Prop :=
  ∀ (c : Instr) (s : State),
    (c.wellFormed = true → ∃ t, exec c s = .next t ∧ t.pending = s.pending)
      ∧ (c.wellFormed = false → exec c s = .refused .illFormed)

/-- The dispatch of a verb on a lane that does not carry it, and of a verb word the part does not know (R166). -/
def Obligations.WrongLaneAndUnknownVerb : Prop :=
  (∀ (v : Verb) (l : Lane) (tag : Byte) (args : List Text) (s : State), s.dispatching l v = some (tag, args) →
      v.carriedOn l = false → Refuses (v.command l) l tag .lane s)
    ∧ (∀ (l : Lane) (ln : Line) (s : State), s.headLine l = some ln → ln.request.1 = none →
        Answers (.unknownVerb l) l ln.tag (.err .unknown) s)

/-- A verb that is refused changes nothing: whatever verb a lane dispatches, a reply ERR leaves everything as it was but
the line and the reply (and the marks say again what the owners' state gives, log 8). -/
def Obligations.RefusedVerbChangesNothing : Prop :=
  ∀ (v : Verb) (l : Lane) (tag : Byte) (args : List Text) (why : Reason) (s t : State),
    s.dispatching l v = some (tag, args) → exec (v.command l) s = .next t →
    t.ofp.outQ = s.ofp.outQ ++ [.reply l tag (.err why)] →
    Replied l tag (.err why) s t ∧ OnlyChanges [.office, .marks] s t

/-- Power-on reset leaves what the rules give at power-on, block by block: SST (R175, R178), OFP (R168, R169, R172), TMB
(R153), SMN (R24), MXP (R27, R36), LUR with the tables of a blank image until the load ends (R1, R9, R17, R178), CRS
(R20, R22, R23), CSC and URX (R40, R44, R51, R54), DTB (R62, R63), AEN (R65, R82, R86), RSW (R87), PIN (R96), PPL (R103,
R105, R110), OLZ (R120, R127), BJN (R139), and the default parameters (10.5). The absent slot number, the two fields of the
model's own (no second advance due, no wave visit owed) and the values of the power-on state that the spec does not give
are the model's (log 10). -/
def Obligations.PowerOnValues : Prop :=
  let s := State.reset
  s.sst.runState = .loading ∧ s.sst.flash = .idle ∧ s.sst.abandoned = false ∧ s.pending = []
    ∧ (∀ l, s.ofp.inbox l = []) ∧ s.ofp.outQ = [] ∧ s.ofp.compat = false ∧ s.ofp.held = none ∧ s.ofp.saveTag = none
    ∧ s.ofp.clearTag = none
    ∧ (∀ k, s.attn k = ⟨false, true, false, false⟩)
    ∧ s.tmb.station = 0 ∧ s.tmb.timeSet = false ∧ s.tmb.uncertain = true ∧ s.tmb.run = 0 ∧ s.tmb.phase = 0
    ∧ s.tmb.advanceDue = false ∧ s.tmb.clock = .internal ∧ s.tmb.edge = false ∧ s.tmb.goodRun = 0
    ∧ s.tmb.startup = true ∧ s.tmb.startupSamples = 0
    ∧ (∀ k, s.source k = ⟨⟨if k = 0 then .slate else .studio, false⟩, .present, 0, 0⟩)
    ∧ s.mxp.queue = [] ∧ s.mxp.flight = none ∧ s.mxp.readDue = false ∧ s.mxp.last = .read
    ∧ (∀ k, s.slot k = ⟨⟨false, k, [], 0, 0, none, false, false⟩, 0, .e, false, none, false⟩)
    ∧ (∀ k, s.event k = none) ∧ s.lur.override.active = false
    ∧ s.crs.mode = .cycle ∧ s.crs.cursor = 0 ∧ s.crs.burst = 0 ∧ (∀ e, s.entryEnabled e = true) ∧ s.crs.text = []
    ∧ s.csc.windows = [] ∧ s.csc.floor = 0 ∧ s.nextSlot = 0 ∧ s.csc.granted = none ∧ s.csc.frame = none
    ∧ s.urx.stray = none
    ∧ (∀ d, s.drop d
        = ⟨.vacant, none, none, 0, [], none, none, 0, 0, false, false, none, none, none, none, 0⟩)
    ∧ (∀ b, s.guarded b = false)
    ∧ s.aen.queue = [] ∧ s.aen.waves = [] ∧ s.aen.paused = false ∧ s.aen.owed = false
    ∧ s.rsw.counter = 0 ∧ s.rsw.request = false ∧ s.rsw.cursor = 2047 ∧ s.rsw.outstanding = []
    ∧ s.pin.mode = .normal
    ∧ (∀ u, s.unit u = ⟨⟨.none, none, none, false⟩, .unknown, 0, none, false, none, false, false⟩)
    ∧ s.ppl.timer = 0 ∧ s.ppl.running = false ∧ s.ppl.heldExpiry = false ∧ s.ppl.cursor = 0 ∧ s.ppl.poll = none
    ∧ s.olz.log = [] ∧ s.olz.settle = [] ∧ s.olz.taken = [] ∧ s.olz.nextNumber = 1
    ∧ s.bjn.held = [] ∧ s.bjn.nextSeq = 1 ∧ s.bjn.period = 1 ∧ s.bjn.drainCursor = 0 ∧ s.bjn.drainLeft = none
    ∧ s.params = ⟨50, 3, 3, 2, 3, 60, 5, 20, 50, 512, 240, 10, 14400⟩

/-! ## Invariants -/

/-- Every step leaves CSC's marks saying what the owners' state gives (R42; that the owners report at once is the
model's choice, log 8). -/
def Obligations.EveryStepKeepsMarks : Prop := ∀ s t : State, MarksCurrent s → step s = .next t → MarksCurrent t

/-- Every step keeps every table in its canonical form (log 9: the model's form). -/
def Obligations.EveryStepKeepsTables : Prop := ∀ s t : State, TablesCanonical s → step s = .next t → TablesCanonical t

/-- Every step keeps at most three windows open, no two with the same address (R45). -/
def Obligations.EveryStepKeepsWindows : Prop := ∀ s t : State, WindowsSound s → step s = .next t → WindowsSound t

/-- Every step keeps the attention flags consistent: a kind is announced only while pending, and due only while
pending, enabled and not announced (R169 to R171). -/
def Obligations.EveryStepKeepsAttention : Prop :=
  ∀ s t : State, AttentionSound s → step s = .next t → AttentionSound t

/-- Every step keeps the output queue, with the place reserved for a SETTINGS.CLEAR, within 16 lines and every inbox
within 4 (R165, R167). -/
def Obligations.EveryStepKeepsOfficeBounds : Prop :=
  ∀ s t : State, OfficeBounded s → step s = .next t → OfficeBounded t

/-- Every step keeps the journal within 4096 records whose sequence numbers run without a gap up to the next sequence
less 1 (R139). -/
def Obligations.EveryStepKeepsJournal : Prop := ∀ s t : State, JournalSound s → step s = .next t → JournalSound t

/-- The invariants hold at power-on reset. -/
def Obligations.ResetIsSound : Prop :=
  MarksCurrent State.reset ∧ TablesCanonical State.reset ∧ WindowsSound State.reset ∧ AttentionSound State.reset
    ∧ OfficeBounded State.reset ∧ JournalSound State.reset

/-! ## Reading verbs -/

/-- SLOT.READ (R4): every field of R1, `-` for an absent fallback, `U` for an UNKNOWN carried source; ARGS for a
number outside 1 to 80. SOURCE.READ and SOURCE.LIST (R26). That SLOT.READ's flags stand as 1 or 0, SOURCE.READ's
presence as its whole word, and the 48 letters of SOURCE.LIST together as one field, is the model's choice (log 14).
-/
def Obligations.SlotAndSourceReadings : Prop :=
  (∀ (l : Lane) (tag : Byte) (args : List Text) (s : State), Takes .slotRead l tag args s →
    ((∀ a, args = [a] → argNum 1 80 a = none) → Answers (.slotRead l) l tag (.err .args) s)
      ∧ ∀ a k, args = [a] → argNum 1 80 a = some k → Answers (.slotRead l) l tag
          (.ok [fFlag (s.slot k).cfg.enabled, fNum (s.slot k).cfg.display, fText (s.slot k).cfg.name,
            fNum (s.slot k).cfg.tier, fNum (s.slot k).cfg.primary,
            match (s.slot k).cfg.fallback with
              | none => fWord "-"
              | some x => fNum x,
            fFlag (s.slot k).cfg.autoRestore, fFlag (s.slot k).cfg.exempt, fNum (s.slot k).resolved,
            fWord (s.slot k).step.word, fFlag (s.slot k).latch,
            match (s.slot k).carried with
              | none => fWord "U"
              | some x => fNum x,
            fFlag (s.slot k).fault]) s)
    ∧ ((∀ (l : Lane) (tag : Byte) (args : List Text) (s : State), Takes .sourceRead l tag args s →
    ((∀ a, args = [a] → argNum 0 47 a = none) → Answers (.sourceRead l) l tag (.err .args) s)
      ∧ ∀ a k, args = [a] → argNum 0 47 a = some k → Answers (.sourceRead l) l tag
          (.ok [fWord (sourceKindWord (s.source k).cfg.kind), fFlag (s.source k).cfg.monitored,
            fWord (s.source k).presence.word, fNum (s.source k).misses, fNum (s.source k).goods]) s)
    ∧ ∀ (l : Lane) (tag : Byte) (s : State), Takes .sourceList l tag [] s →
        Answers (.sourceList l) l tag
          (.ok [(List.range 48).map fun k =>
            if (s.source k).cfg.monitored = false then Piece.word "-"
            else match (s.source k).presence with
              | .present => .word "P"
              | .doubtful => .word "D"
              | .lost => .word "L"
              | .returning => .word "R"]) s)

/-- EVENT.READ and EVENT.LIST (R15), MATRIX.STATUS (R39), STRAY.READ and STRAY.REARM (R52), CARRIER.STATUS (R55; the
slots left are 3 in the frame's own slot). How the fields of EVENT.LIST, MATRIX.STATUS and CARRIER.STATUS stand on the
line, that EVENT.LIST with no event is OK alone, and that EVENT.READ shows the state as its whole word and the flags
as 1 or 0, is the model's choice (log 14). -/
def Obligations.EventMatrixStrayCarrierVerbs : Prop :=
  ((∀ (l : Lane) (tag : Byte) (args : List Text) (s : State), Takes .eventRead l tag args s →
    ((∀ a id, args = [a] → argNum 1 255 a = some id → s.findEvent id = none) →
        Answers (.eventRead l) l tag (.err .args) s)
      ∧ ∀ a id k e, args = [a] → argNum 1 255 a = some id → s.findEvent id = some (k, e) →
          Answers (.eventRead l) l tag
            (.ok [fNum k, fNum e.cfg.id, fNum e.cfg.slot, fNum e.cfg.source, fTime e.cfg.orderOpen, fTime e.cfg.start,
              fTime e.cfg.stop, fNum e.cfg.price, fFlag e.cfg.cancelled, fWord e.state.word, fFlag e.cleanup]) s)
    ∧ ∀ (l : Lane) (tag : Byte) (s : State), Takes .eventList l tag [] s →
        Answers (.eventList l) l tag
          (.ok (s.eventEntries.map fun e =>
            match e.2.state with
            | .scheduled => [.num e.2.cfg.id, .word "S"]
            | .ordering => [.num e.2.cfg.id, .word "O"]
            | .showing => [.num e.2.cfg.id, .word "W"]
            | .ended => [.num e.2.cfg.id, .word "E"] ++ if e.2.cleanup then [.word "+"] else [])) s)
    ∧ (((∀ (l : Lane) (tag : Byte) (s : State), Takes .matrixStatus l tag [] s →
    Answers (.matrixStatus l) l tag
      (.ok ([fNum s.mxp.queue.length]
        ++ (match s.mxp.flight with
            | some (.order k src issue) => [fNum k, fNum src, fNum issue, fWord "-"]
            | some .read => [fWord "-", fWord "R"]
            | none => [fWord "-", fWord "-"])
        ++ [fFlag s.mxp.readDue,
            match s.mxp.last with
            | .read => fWord "R"
            | .order => fWord "O",
            fList ((s.slotKeys.filter fun k => (s.slot k).fault).map fNum)])) s)
    ∧ ((∀ (l : Lane) (tag : Byte) (s : State), Takes .strayRead l tag [] s →
    (s.urx.stray = none → Answers (.strayRead l) l tag (.ok [fWord "ARMED"]) s)
      ∧ ∀ x, s.urx.stray = some x → Answers (.strayRead l) l tag
          (.ok [fWord "CAPTURED", fWord x.cause.word, [.hex6 x.address], [.hex2 x.kind],
            match x.station with
              | none => fWord "-"
              | some w => fTime w,
            fTime x.run]) s)
    ∧ ∀ (l : Lane) (tag : Byte) (s : State), Takes .strayRearm l tag [] s →
        Accepts (.strayRearm l) l tag (.ok []) s [.urx] fun t => t.urx.stray = none))
    ∧ (∀ (l : Lane) (tag : Byte) (s : State), Takes .carrierStatus l tag [] s →
    Answers (.carrierStatus l) l tag
      (.ok ((if s.csc.windows = [] then [fWord "-"]
          else (s.csc.windows.map fun w => [[Piece.hex6 w.address], fWord w.kind.word, fNum w.owner,
            fNum (min 3 ((w.closing - s.csc.slotNumber.getD 0).toNat + 1))]).flatten)
        ++ [fNum s.csc.floor,
            let set := (if s.csc.marks.alert then [Piece.word "A"] else [])
              ++ (if s.csc.marks.carousel then [.word "C"] else [])
              ++ (if s.csc.marks.authorize.isSome then [.word "Z"] else [])
              ++ (if s.csc.marks.poll.isSome then [.word "P"] else [])
              ++ (if s.csc.marks.refresh.isSome then [.word "F"] else [])
            if set = [] then fWord "-" else set,
            match s.csc.granted with
            | none => fWord "-"
            | some .alert => fWord "A"
            | some .carousel => fWord "C"
            | some .authorize => fWord "Z"
            | some .poll => fWord "P"
            | some .refresh => fWord "F"])) s))

/-- PROTECT.SET, PROTECT.CLEAR and PROTECT.READ (R64). That the eight digits of PROTECT.READ stand together as one field is
the model's choice (log 14). -/
def Obligations.ProtectVerbs : Prop :=
  (∀ (on : Bool) (l : Lane) (tag : Byte) (args : List Text) (s : State),
    Takes (if on then .protectSet else .protectClear) l tag args s →
    let c : Instr := if on then .protectSet l else .protectClear l
    (s.sst.runState = .saving → Refuses c l tag .busy s)
      ∧ (s.sst.runState ≠ .saving → (∀ a, args = [a] → argNum 0 7 a = none) → Refuses c l tag .args s)
      ∧ ∀ a b, s.sst.runState ≠ .saving → args = [a] → argNum 0 7 a = some b →
          Accepts c l tag (.ok []) s [.dtb] fun t =>
            t.dtb.drops = s.dtb.drops ∧ ∀ j, t.guarded j = if j = b then on else s.guarded j)
    ∧ (∀ (l : Lane) (tag : Byte) (args : List Text) (s : State), s.dispatching l .protectClear = some (tag, args) →
        l ≠ .m → Refuses (.protectClear l) l tag .lane s)
    ∧ ∀ (l : Lane) (tag : Byte) (s : State), Takes .protectRead l tag [] s →
        Answers (.protectRead l) l tag (.ok [(List.range 8).map fun b => .num (if s.guarded b then 1 else 0)]) s

/-- DROP.READ and DROP.LIST (R77): every field of R61 in the order of its table, then the block's protection flag; up
to 16 drops from the starting number in the named state, and where a further list starts (log 28). That the flags
stand as 1 or 0, and that no drops give no field, is the model's choice (log 14). -/
def Obligations.DropReadings : Prop :=
  (∀ (l : Lane) (tag : Byte) (a : Text) (d : Nat) (s : State), Takes .dropRead l tag [a] s →
    argNum 0 2047 a = some d → Answers (.dropRead l) l tag
      (.ok [fWord (serviceWord (s.drop d).service), fOpt (fun x => [.hex6 x]) (s.drop d).address,
        fOpt fTime (s.drop d).account, fTiers (s.drop d).tiers, fList ((s.drop d).events.map fNum),
        fOpt fNum (s.drop d).feed, fOpt (fun x => fWord x.word) (s.drop d).link, fNum (s.drop d).attempts,
        fNum (s.drop d).misses, fFlag (s.drop d).stale, fFlag (s.drop d).parkOnClose,
        fOpt fTime (s.drop d).lastConfirmed, fOpt fNum (s.drop d).outage, fOpt fTime (s.drop d).accrual,
        fOpt fTime (s.drop d).lastEnd, fNum (s.drop d).pending, fFlag (s.guarded (d / 256))]) s)
    ∧ (∀ (l : Lane) (tag : Byte) (a b : Text) (p : Drop → Bool) (start : Nat) (s : State),
        Takes .dropList l tag [a, b] s → argNum 0 2047 b = some start →
        ((∃ v, argWordOf serviceWords a = some v ∧ p = fun r => r.service == v)
          ∨ (argWordOf serviceWords a = none ∧ ∃ k, argWordOf linkWords a = some k ∧ p = fun r => r.link == some k)) →
        let found := ((List.range 2048).filter fun d => start ≤ d && p (s.drop d)).take 16
        Answers (.dropList l) l tag
          (.ok (found.map fNum ++ [match found[15]? with
            | none => fWord "-"
            | some d => if d < 2047 then fNum (d + 1) else fWord "-"])) s)
    ∧ ∀ (l : Lane) (tag : Byte) (a b : Text) (s : State), Takes .dropList l tag [a, b] s →
        argWordOf serviceWords a = none → argWordOf linkWords a = none →
        Answers (.dropList l) l tag (.err .args) s

/-- UNIT.READ, UNIT.LIST and POLL.STATUS (R118); OUTAGE.READ and OUTAGE.LIST (R137, R138). How the fields stand on the
line, with none for an empty list, is the model's choice (log 14); where a further list starts is its reading (log 28). -/
def Obligations.UnitAndOutageReadings : Prop :=
  ((∀ (l : Lane) (tag : Byte) (args : List Text) (s : State), Takes .unitRead l tag args s →
    ((∀ a, args = [a] → argNum 0 511 a = none) → Answers (.unitRead l) l tag (.err .args) s)
      ∧ (∀ a u, args = [a] → argNum 0 511 a = some u → (s.unit u).cfg.kind = .none →
          Answers (.unitRead l) l tag (.ok [fWord "NONE"]) s)
      ∧ ∀ a u, args = [a] → argNum 0 511 a = some u → (s.unit u).cfg.kind ≠ .none →
          Answers (.unitRead l) l tag
            (.ok ([fWord (unitKindWord (s.unit u).cfg.kind), fOpt fNum (s.unit u).cfg.parent,
              fOpt (fun x => [.hex6 x]) (s.unit u).cfg.address, fFlag (s.unit u).cfg.inService,
              fWord (s.unit u).state.word, fNum (s.unit u).missed, fOpt fTime (s.unit u).missingSince,
              fFlag (s.unit u).unlogged]
            ++ (match (s.unit u).last with
                | none => [fWord "-"]
                | some st => [fNum st.supply, fNum st.levelClass, fInt st.level])
            ++ [match (s.unit u).power, (s.unit u).level with
                | false, false => fWord "-"
                | true, false => fWord "P"
                | false, true => fWord "L"
                | true, true => [.word "P", .word "L"]])) s)
    ∧ (∀ (l : Lane) (tag : Byte) (a b : Text) (p : PlantUnit → Bool) (start : Nat) (s : State),
        Takes .unitList l tag [a, b] s → argNum 0 511 b = some start →
        ((a = ascii "COND" ∧ p = fun r => r.cfg.kind != .none && (r.power || r.level))
          ∨ (a ≠ ascii "COND" ∧ ∃ st, argWordOf unitStateWords a = some st
              ∧ p = fun r => r.cfg.kind != .none && r.state == st)) →
        let found := (s.unitKeys.filter fun u => start ≤ u && p (s.unit u)).take 16
        Answers (.unitList l) l tag
          (.ok (found.map fNum ++ [match found[15]? with
            | none => fWord "-"
            | some u => if u < 511 then fNum (u + 1) else fWord "-"])) s)
    ∧ (∀ (l : Lane) (tag : Byte) (a b : Text) (s : State), Takes .unitList l tag [a, b] s → a ≠ ascii "COND" →
        argWordOf unitStateWords a = none → Answers (.unitList l) l tag (.err .args) s)
    ∧ ∀ (l : Lane) (tag : Byte) (s : State), Takes .pollStatus l tag [] s →
        Answers (.pollStatus l) l tag
          (.ok ([if s.ppl.running then fWord "R" else fWord "I", fNum s.ppl.cursor, fFlag s.ppl.heldExpiry,
            fNum s.ppl.timer, fNum s.params.pollCycle]
          ++ match s.ppl.poll with
            | none => [fWord "-"]
            | some p => [fNum p.unit, fNum p.attempt, fNum p.allowed, fFlag p.windowOpen, fFlag p.heldChange])) s)
    ∧ ((∀ (l : Lane) (tag : Byte) (args : List Text) (s : State), Takes .outageRead l tag args s →
    ((∀ a, args = [a] → argNum 1 65535 a = none) → Answers (.outageRead l) l tag (.err .args) s)
      ∧ (∀ a n, args = [a] → argNum 1 65535 a = some n → s.record n = none →
          Answers (.outageRead l) l tag (.err .range) s)
      ∧ ∀ a n o, args = [a] → argNum 1 65535 a = some n → s.record n = some o →
          Answers (.outageRead l) l tag
            (.ok [fNum o.number, fWord o.kind.word, fFlag o.credit, fNum o.root, fWord o.state.word,
              fOpt (fun r => fWord r.word) o.reason,
              fList (o.successors.map fNum) ++ (if o.more then [.word "+"] else []), fTime o.openRun,
              fOpt fTime o.openStation, fOpt fTime o.closeStation, fNum o.affectedNow, fNum o.affectedPeak]) s)
    ∧ (∀ (l : Lane) (tag : Byte) (a b : Text) (st : OutageState) (start : Nat) (s : State),
        Takes .outageList l tag [a, b] s → argWordOf outageStateWords a = some st →
        argNum 1 65535 b = some start →
        let found := (s.numbers.filter fun n => start ≤ n && (s.record n).any fun o => o.state == st).take 16
        Answers (.outageList l) l tag
          (.ok ([fNum s.olz.log.length,
              fNum (64 - s.olz.log.length + (s.olz.log.filter fun o => o.state == .closed).length),
              fNum s.olz.nextNumber, fNum s.olz.settle.length,
              if s.olz.taken = [] then fWord "-"
              else fNum s.olz.cursor ++ (if s.olz.paused then [.word "P"] else [])]
            ++ (found.map fun n => [fNum n, fNum (((s.record n).map fun o => o.root).getD 0)]).flatten
            ++ [match found[15]? with
              | none => fWord "-"
              | some n => if n < 65535 then fNum (n + 1) else fWord "-"])) s)
    ∧ ∀ (l : Lane) (tag : Byte) (a b : Text) (s : State), Takes .outageList l tag [a, b] s →
        argWordOf outageStateWords a = none ∨ argNum 1 65535 b = none →
        Answers (.outageList l) l tag (.err .args) s)

/-- JOURNAL.READ (R145): the held records from the number on, up to the count; a number in the held range stands `i`
records behind the oldest. JOURNAL.STATUS (R147): a remaining count is 1 to 2048 (R139). That the records of a
JOURNAL.READ stand in one field, joined by `;`, is the model's choice (log 14), and so is what the part shows between the
last visit of a drain and DRAIN_CIRCUIT_END (log 3). -/
def Obligations.JournalReadings : Prop :=
  (∀ (l : Lane) (tag : Byte) (args : List Text) (s : State), Takes .journalRead l tag args s →
    ((∀ a b n, args = [a, b] → argWord a = some n → argNum 1 8 b = none) → Answers (.journalRead l) l tag (.err .args) s)
      ∧ ∀ a b n count, args = [a, b] → argWord a = some n → argNum 1 8 b = some count →
        (∀ o i, s.bjn.held.head? = some o → i = (n - o.seq).toNat → i < s.bjn.held.length →
          Answers (.journalRead l) l tag
            (.ok [List.intercalate [.word ";"] (((s.bjn.held.drop i).take count).map recordField)]) s)
        ∧ ((∀ o, s.bjn.held.head? = some o → s.bjn.held.length ≤ (n - o.seq).toNat) →
          Answers (.journalRead l) l tag (if n = s.bjn.nextSeq then .ok [] else .err .range) s))
    ∧ (∀ (l : Lane) (tag : Byte) (s : State), Takes .journalStatus l tag [] s → s.bjn.drainLeft ≠ some 0 →
    Answers (.journalStatus l) l tag
      (.ok ([fOpt (fun r => fTime r.seq) s.bjn.held.head?, fOpt (fun r => fTime r.seq) s.bjn.held.getLast?,
          fTime s.bjn.nextSeq, fNum s.bjn.held.length, fNum (4096 - s.bjn.held.length), fNum s.bjn.period,
          fNum (s.dropKeys.filter fun d => 0 < (s.drop d).pending).length]
        ++ match s.bjn.drainLeft with
          | none => [fWord "-"]
          | some n => [fNum s.bjn.drainCursor, fNum n])) s)

/-- TIME.STATUS (R161), and STATUS (R173): the line has left its inbox, and the reply being built counts. -/
def Obligations.TimeAndStatusReports : Prop :=
  (∀ (l : Lane) (tag : Byte) (s : State), Takes .timeStatus l tag [] s →
    Answers (.timeStatus l) l tag
      (.ok [fTime s.tmb.station, fWord (if s.tmb.timeSet then "S" else "U"), fFlag s.tmb.uncertain, fTime s.tmb.run,
        fNum s.tmb.phase,
        match s.tmb.clock with
          | .reference => fWord "REF"
          | .internal => fWord "INT",
        fNum s.tmb.goodRun, if s.tmb.startup then fWord "W" else fWord "-"]) s)
    ∧ (∀ (l : Lane) (tag : Byte) (s : State), Takes .status l tag [] s →
    Answers (.status l) l tag
      (.ok [fWord s.sst.runState.word, fWord (if s.tmb.timeSet then "S" else "U"), fFlag s.tmb.uncertain,
        match s.tmb.clock with
          | .reference => fWord "REF"
          | .internal => fWord "INT",
        fNum (Kind.all.filter fun k => (s.attn k).pending).length,
        fNum (s.ofp.inboxP.length - if l = .p then 1 else 0), fNum (s.ofp.inboxM.length - if l = .m then 1 else 0),
        fNum (s.ofp.inboxQ.length - if l = .q then 1 else 0), fNum (s.ofp.outQ.length + 1)]) s)

/-- ATTN.READ and ATTN.CLEAR (R170), ATTN.MASK and ATTN.FORCE (R171). -/
def Obligations.AttentionVerbs : Prop :=
  ((∀ (l : Lane) (tag : Byte) (s : State), Takes .attnRead l tag [] s →
    Answers (.attnRead l) l tag
      (.ok [fKinds (Kind.all.filter fun k => (s.attn k).pending), fKinds (Kind.all.filter fun k => !(s.attn k).enabled)])
      s)
    ∧ ∀ (l : Lane) (tag : Byte) (args : List Text) (s : State), Takes .attnClear l tag args s →
        ((∀ a, args = [a] → argKindsOrAll a = none) → Refuses (.attnClear l) l tag .args s)
          ∧ ∀ a ks, args = [a] → argKindsOrAll a = some ks →
              Accepts (.attnClear l) l tag (.ok []) s [.attn] fun t => ∀ k,
                t.attn k = if k ∈ ks then { s.attn k with pending := false, announced := false, due := false }
                  else s.attn k)
    ∧ ((∀ (l : Lane) (tag : Byte) (args : List Text) (s : State), Takes .attnMask l tag args s →
    ((∀ a, args = [a] → a ≠ ascii "-" ∧ argKindsOrAll a = none) → Refuses (.attnMask l) l tag .args s)
      ∧ ∀ a ks, args = [a] → (if a = ascii "-" then some [] else argKindsOrAll a) = some ks →
          Accepts (.attnMask l) l tag (.ok []) s [.attn] fun t => ∀ k,
            t.attn k =
              if k ∈ ks then
                { s.attn k with
                  enabled := true
                  due := (s.attn k).due || (!(s.attn k).enabled && (s.attn k).pending && !(s.attn k).announced) }
              else { s.attn k with enabled := false, due := false })
    ∧ ∀ (l : Lane) (tag : Byte) (args : List Text) (s : State), Takes .attnForce l tag args s →
        ((∀ a, args = [a] → argKindsOrAll a = none) → Refuses (.attnForce l) l tag .args s)
          ∧ ∀ a ks, args = [a] → argKindsOrAll a = some ks →
              Accepts (.attnForce l) l tag (.ok []) s [.attn] fun t => ∀ k,
                t.attn k =
                  if k ∈ ks ∧ (s.attn k).pending = false then
                    { s.attn k with pending := true, due := (s.attn k).due || (s.attn k).enabled }
                  else s.attn k)

/-- IDENTIFY and IDENTIFY COMPAT (R172); the flag is clear at power-on, and RESET clears it. -/
def Obligations.IdentityVerbs : Prop :=
  (∀ (l : Lane) (tag : Byte) (args : List Text) (s : State), Takes .identify l tag args s →
    (args = [] → Answers (.identify l) l tag
        (.ok [fWord "WILTZEN", fWord "HX-240", if s.ofp.compat then fWord "B" else fWord "C"]) s)
      ∧ (args ≠ [] → args ≠ [ascii "COMPAT"] → Answers (.identify l) l tag (.err .args) s)
      ∧ (args = [ascii "COMPAT"] → ∃ t, exec (.identifyCompat l) s = .next t
          ∧ t.ofp = { (answered l tag (.ok [fWord "WILTZEN", fWord "HX-240", fWord "B"]) s).ofp with compat := true }
          ∧ OnlyChanges [.office, .marks] s t))
    ∧ State.reset.ofp.compat = false
    ∧ ∀ (l : Lane) (tag : Byte) (s : State), Takes .reset l tag [] s → ∃ t, exec (.reset l) s = .next t
        ∧ t.ofp.compat = false

/-- AUTH.STATUS (R86), REFRESH.STATUS (R95), INTAKE.STATUS, SETTINGS.STATUS (R181) and CAROUSEL.READ. How the fields
stand on the line, with none for an empty wave list, is the model's choice (log 14), and so are the enabled flags as 1
or 0. -/
def Obligations.EngineStatusReadings : Prop :=
  (∀ (l : Lane) (tag : Byte) (s : State), Takes .authStatus l tag [] s →
    Answers (.authStatus l) l tag
      (.ok ([fNum s.aen.queue.length, fNum (s.aen.queue.filter fun e => e.urgent).length]
        ++ (if s.aen.queue = [] then [fWord "-"]
            else (s.aen.queue.take 8).map fun e => [.num e.drop] ++ if e.urgent then [.word "+"] else [])
        ++ (s.aen.waves.map waveFields).flatten ++ [if s.aen.paused then fWord "P" else fWord "-"])) s)
    ∧ (∀ (l : Lane) (tag : Byte) (s : State), Takes .refreshStatus l tag [] s →
        Answers (.refreshStatus l) l tag
          (.ok ([fNum s.rsw.counter, fNum s.params.refreshStep, if s.rsw.request then fWord "P" else fWord "-",
              fNum s.rsw.cursor, fOpt fNum s.candidate]
            ++ if s.rsw.outstanding = [] then [fWord "-"]
              else s.rsw.outstanding.map fun o => [.num o.drop, .word (if o.link = .settled then "S" else "U")])) s)
    ∧ (∀ (l : Lane) (tag : Byte) (s : State), Takes .intakeStatus l tag [] s →
        Answers (.intakeStatus l) l tag
          (.ok [fWord (intakeWord s.pin.mode),
            fWord (intakeWord (if s.pin.mode = .normal ∧ 4096 - s.bjn.held.length ≤ 256 then .defer else s.pin.mode)),
            fNum (4096 - s.bjn.held.length)]) s)
    ∧ (∀ (l : Lane) (tag : Byte) (s : State), Takes .settingsStatus l tag [] s →
        Answers (.settingsStatus l) l tag
          (.ok ([fLoadResult s.sst.loadResult, fWord (if s.sst.imageValid then "VALID" else "INVALID"),
              if s.sst.generation = 0 then fWord "-" else fNum s.sst.generation]
            ++ match s.sst.flash with
              | .idle => [fWord "IDLE"]
              | .erasing _ => [fWord "ERASING"]
              | .saving .erase => [fWord "SAVING", fWord "E"]
              | .saving .body => [fWord "SAVING", fWord "B"]
              | .saving .header => [fWord "SAVING", fWord "H"]
              | .saving .version => [fWord "SAVING", fWord "H"])) s)
    ∧ ∀ (l : Lane) (tag : Byte) (s : State), Takes .carouselRead l tag [] s →
        Answers (.carouselRead l) l tag
          (.ok ((match s.crs.mode with
              | .cycle => [fWord "CYCLE"]
              | .burst n => [fWord "BURST", fNum n]
              | .hold e => [fWord "HOLD", fNum e]
              | .stopped => [fWord "STOPPED"])
            ++ [fNum s.crs.cursor, fNum s.crs.burst,
              (List.range 16).map fun e => .num (if s.entryEnabled e then 1 else 0), fText s.crs.text])) s

/-! ## The line-up -/

/-- SLOT.SET (R2, R3): the checks in order, and what an accepted one changes. SLOT.RESTORE (R8), which is answered in
SAVING too. -/
def Obligations.SlotVerbEffects : Prop :=
  (∀ (l : Lane) (tag : Byte) (args : List Text) (s : State), Takes .slotSet l tag args s →
    Parsed (.slotSet l) l tag s (argsSlotSet args) fun (k, c) =>
      Checked (.slotSet l) l tag s
        [(c.enabled = true ∧ ∃ j, j ≠ k ∧ (s.slot j).cfg.enabled = true ∧ (s.slot j).cfg.display = c.display,
            .duplicate),
          ((s.slot k).cfg.enabled = true ∧ c.enabled = false
              ∧ ∃ n e, s.event n = some e ∧ e.cfg.slot = k ∧ e.state ≠ .ended, .inUse)]
        (((s.slot k).cfg = c → Accepts (.slotSet l) l tag (.ok []) s [] fun _ => True)
          ∧ ((s.slot k).cfg ≠ c → Accepts (.slotSet l) l tag (.ok []) s [.lur, .mxp, .crs, .waves] fun t =>
              let old := s.slot k
              let new := t.slot k
              new.cfg = c ∧ new.latch = (if c.primary = old.cfg.primary then old.latch else false)
                ∧ new.carried = old.carried ∧ new.fault = old.fault ∧ Resolved k t
                ∧ (∀ j, j ≠ k → t.slot j = s.slot j) ∧ t.lur.events = s.lur.events ∧ t.lur.override = s.lur.override
                ∧ t.mxp = { s.mxp with queue := t.mxp.queue }
                ∧ t.mxp.queue = (if c.enabled = true ∧ (new.resolved ≠ old.resolved ∨ old.cfg.enabled = false) then
                    putOrderIn k new.resolved s.mxp.queue else s.mxp.queue)
                ∧ t.aen.paused = s.aen.paused
                ∧ t.aen.waves = (if c.tier ≠ old.cfg.tier ∨ c.enabled ≠ old.cfg.enabled then
                    appendedWaves (.tiers (tierBit old.cfg.tier ||| tierBit c.tier)) s.aen.waves else s.aen.waves)
                ∧ PagesOnly s t ∧ t.crs.eventPages = s.crs.eventPages
                ∧ ∀ n, t.mapPageHeld n =
                    if n = mapPageOf k ∧ (shownFields c ≠ shownFields old.cfg
                      ∨ (new.resolved == 0) ≠ (old.resolved == 0)) then mapPage t n
                    else s.mapPageHeld n)))
    ∧ (∀ (l : Lane) (tag : Byte) (args : List Text) (s : State), Takes .slotRestore l tag args s →
    (one (argNum 1 80) args = none → Refuses (.slotRestore l) l tag .args s)
      ∧ ∀ k, one (argNum 1 80) args = some k →
        Checked (.slotRestore l) l tag s [(s.usable (s.slot k).cfg.primary = false, .state)]
          (((s.slot k).latch = false → Accepts (.slotRestore l) l tag (.ok []) s [] fun _ => True)
            ∧ ((s.slot k).latch = true → Accepts (.slotRestore l) l tag (.ok []) s [.lur, .mxp, .crs] fun t =>
                Reresolved (· = k) (s.setSlot k { s.slot k with latch := false }) t
                  ∧ t.crs.eventPages = s.crs.eventPages)))

/-- EVENT.ADD (R12): the checks in order; the event goes into the lowest free entry, in the state its times give. -/
def Obligations.EventAddEffects : Prop :=
  ∀ (l : Lane) (tag : Byte) (args : List Text) (s : State), Takes .eventAdd l tag args s →
    Parsed (.eventAdd l) l tag s (argsEventAdd args) fun c =>
      Checked (.eventAdd l) l tag s
        [(s.tmb.timeSet = true ∧ c.stop ≤ s.tmb.station, .range),
          ((s.slot c.slot).cfg.enabled = false, .state),
          (∃ n e, s.event n = some e ∧ e.cfg.slot = c.slot ∧ e.state ≠ .ended ∧ e.cfg.start < c.stop
              ∧ c.start < e.cfg.stop, .overlap),
          (∃ n e, s.event n = some e ∧ e.cfg.id = c.id, .duplicate),
          (∀ n, n < 32 → s.event n ≠ none, .full)]
        (∀ k, k < 32 → s.event k = none → (∀ j, j < k → s.event j ≠ none) →
          Accepts (.eventAdd l) l tag (.ok [fNum k]) s [.lur, .mxp, .crs] fun t =>
            let st := eventStateAt s.tmb.timeSet s.tmb.station c
            t.event k = some ⟨c, st, false, false⟩ ∧ (∀ j, j ≠ k → t.event j = s.event j)
              ∧ Reresolved (fun j => decide (st = .showing ∧ j = c.slot)) (s.setEvent k (some ⟨c, st, false, false⟩)) t
              ∧ RebuiltEvents (k / 8) s t)

/-- EVENT.CANCEL and EVENT.DELETE (R11, R13, R14). -/
def Obligations.EventCancelAndDelete : Prop :=
  (∀ (l : Lane) (tag : Byte) (args : List Text) (s : State), Takes .eventCancel l tag args s →
    Parsed (.eventCancel l) l tag s (one (fun a => (argNum 1 255 a).bind s.findEvent) args) fun (k, e) =>
      Checked (.eventCancel l) l tag s [(e.state = .ended, .state)]
        (Accepts (.eventCancel l) l tag (.ok []) s [.lur, .mxp, .crs, .attn, .waves] fun t =>
          let e' : Event := { e with cfg := { e.cfg with cancelled := true }, state := .ended }
          t.event k = some e' ∧ (∀ j, j ≠ k → t.event j = s.event j)
            ∧ Reresolved (fun j => decide (e.state = .showing ∧ j = e.cfg.slot)) (s.setEvent k (some e')) t
            ∧ RebuiltEvents (k / 8) s t ∧ Raised [.event] s t ∧ t.aen.paused = s.aen.paused
            ∧ t.aen.waves = appendedWaves (.event e.cfg.id) s.aen.waves))
    ∧ ∀ (l : Lane) (tag : Byte) (args : List Text) (s : State), Takes .eventDelete l tag args s →
        Parsed (.eventDelete l) l tag s (one (fun a => (argNum 1 255 a).bind s.findEvent) args) fun (k, e) =>
          Checked (.eventDelete l) l tag s [(e.state ≠ .ended ∨ e.cleanup = false, .inUse)]
            (Accepts (.eventDelete l) l tag (.ok []) s [.lur, .crs] fun t =>
              t.event k = none ∧ (∀ j, j ≠ k → t.event j = s.event j) ∧ t.lur.slots = s.lur.slots
                ∧ t.lur.override = s.lur.override ∧ PagesOnly s t ∧ t.crs.mapPages = s.crs.mapPages
                ∧ RebuiltEvents (k / 8) s t)

/-- EMERGENCY.ON, EMERGENCY.OFF, and the override's expiry and ALERT due times (R17 to R19). EMERGENCY.ON and OFF are
taken in SAVING too. That EMERGENCY.OFF's ARGS comes before STATE is the model's choice (log 32), and so is the ascending
order in which the slots resolved again put in their orders (log 44). -/
def Obligations.EmergencyOverride : Prop :=
  (∀ (l : Lane) (tag : Byte) (args : List Text) (s : State), Takes .emergencyOn l tag args s →
    (argsEmergencyOn args = none → Refuses (.emergencyOn l) l tag .args s)
      ∧ ∀ source duration slot code, argsEmergencyOn args = some (source, duration, slot, code) →
        Checked (.emergencyOn l) l tag s
          [((s.source source).cfg.kind ≠ .alert, .args), ((s.slot slot).cfg.enabled = false, .state)]
          (Accepts (.emergencyOn l) l tag (.ok []) s [.lur, .mxp, .crs] fun t =>
            let o : Override := ⟨true, source, slot, code, s.tmb.run + BitVec.ofNat 32 duration,
              s.tmb.run + BitVec.ofNat 32 s.params.alertInterval, true⟩
            t.lur.override = o ∧ t.crs.eventPages = s.crs.eventPages
              ∧ (s.lur.override.active = true ∧ s.lur.override.source = source →
                  t.lur = { s.lur with override := o } ∧ t.mxp = s.mxp ∧ t.crs = s.crs)
              ∧ (¬(s.lur.override.active = true ∧ s.lur.override.source = source) →
                  Reresolved (fun k => !(s.slot k).cfg.exempt) (s.setOverride o) t)))
    ∧ (∀ (l : Lane) (tag : Byte) (args : List Text) (s : State), Takes .emergencyOff l tag args s →
        Checked (.emergencyOff l) l tag s [(args ≠ [], .args), (s.lur.override.active = false, .state)]
          (Accepts (.emergencyOff l) l tag (.ok []) s [.lur, .mxp, .crs, .attn] (OverrideEnded s)))
    ∧ (∀ s : State, s.lur.override.active = true → s.tmb.run = s.lur.override.expiry →
        Happens .emergencyExpiry s [.lur, .mxp, .crs, .attn] (OverrideEnded s))
    ∧ ∀ s : State, s.lur.override.active = true → s.tmb.run = s.lur.override.nextDue →
        Happens .alertDue s [.lur] fun t =>
          t.lur = { s.lur with override := { s.lur.override with
            ready := true, nextDue := s.lur.override.nextDue + BitVec.ofNat 32 s.params.alertInterval } }

/-- CAROUSEL.MODE, CAROUSEL.TEXT and CAROUSEL.ENABLE (R22, R23). -/
def Obligations.CarouselVerbs : Prop :=
  (∀ (l : Lane) (tag : Byte) (args : List Text) (s : State), Takes .carouselMode l tag args s →
    Parsed (.carouselMode l) l tag s (argsCarouselMode args) fun m =>
      Accepts (.carouselMode l) l tag (.ok []) s [.crs] fun t =>
        t.crs = { s.crs with mode := m, cursor := 0, burst := match m with
          | .burst n => n
          | .cycle => 0
          | .hold _ => 0
          | .stopped => 0 })
    ∧ (∀ (l : Lane) (tag : Byte) (args : List Text) (s : State), Takes .carouselText l tag args s →
        Parsed (.carouselText l) l tag s (one (fun a => (argText a).filter fun x => decide (x.length ≤ 96)) args)
          fun x => Accepts (.carouselText l) l tag (.ok []) s [.crs] fun t => t.crs = { s.crs with text := x })
    ∧ ∀ (l : Lane) (tag : Byte) (args : List Text) (s : State), Takes .carouselEnable l tag args s →
        Parsed (.carouselEnable l) l tag s (two (argNum 0 15) argFlag args) fun (e, on) =>
          Accepts (.carouselEnable l) l tag (.ok []) s [.crs] fun t =>
            t.crs = { s.crs with enables := t.crs.enables }
              ∧ ∀ k, t.entryEnabled k = if k = e then on else s.entryEnabled k

/-- SOURCE.SET (R25): SLATE belongs to source 0 alone, which is not monitored; a change of the monitored flag makes the
source PRESENT, and the slots that use it are resolved again (R6), in ascending order (the model's choice, log 44). -/
def Obligations.SourceSetEffects : Prop :=
  ∀ (l : Lane) (tag : Byte) (args : List Text) (s : State), Takes .sourceSet l tag args s →
    Parsed (.sourceSet l) l tag s (argsSourceSet args) fun (k, c) =>
      Checked (.sourceSet l) l tag s
        [(¬(if k = 0 then c.kind = .slate ∧ c.monitored = false else c.kind ≠ .slate), .args)]
        ((c.monitored = (s.source k).cfg.monitored → Accepts (.sourceSet l) l tag (.ok []) s [.smn] fun t =>
            ∀ j, t.source j = if j = k then { s.source k with cfg := c } else s.source j)
          ∧ (c.monitored ≠ (s.source k).cfg.monitored →
              Accepts (.sourceSet l) l tag (.ok []) s [.smn, .lur, .mxp, .crs] fun t =>
                (∀ j, t.source j = if j = k then ⟨c, .present, 0, 0⟩ else s.source j)
                  ∧ t.crs.eventPages = s.crs.eventPages ∧ Reresolved (usesSource s k) s t))

/-! ## Drops -/

/-- DROP.CONNECT (R68, R69): the checks in order; the drop becomes ACTIVE with a CONNECT record, and either enters its
proper outage PARKED, a crediting one starting its accrual now, or is QUEUED at the tail. -/
def Obligations.DropConnectEffects : Prop :=
  ∀ (l : Lane) (tag : Byte) (args : List Text) (s : State), Takes .dropConnect l tag args s →
    Parsed (.dropConnect l) l tag s (argsConnect args) fun (d, a, account, u, tiers) =>
      Checked (.dropConnect l) l tag s
        [((s.drop d).service ≠ .vacant, .state), (0 < (s.drop d).pending, .pendingCredit),
          ((s.unit u).cfg.kind = .none, .args),
          ((∃ j, (s.drop j).service ≠ .vacant ∧ (s.drop j).address = some a)
            ∨ (∃ v, (s.unit v).cfg.kind ≠ .none ∧ (s.unit v).cfg.address = some a), .duplicate),
          (∃ w ∈ s.csc.windows, w.address = a ∨ (w.kind ≠ .poll ∧ w.owner = d), .busy),
          (4096 - s.bjn.held.length ≤ 256, .journal),
          (64 ≤ s.aen.queue.length ∧ s.properAt u = none, .full)]
        (let r : Drop := { Drop.blank with
            service := .active, address := some a, account := some account, tiers := tiers, feed := some u
            lastEnd := some s.tmb.run }
        (s.properAt u = none →
            Accepts (.dropConnect l) l tag (.ok [fWord "ACTIVE", fWord "QUEUED"]) s [.dtb, .bjn, .attn, .queue] fun t =>
              Wrote [.connect d (some account) (some a) tiers] s t ∧ OnlyDrop d s t
                ∧ t.drop d = { r with link := some .queued } ∧ t.aen.queue = s.aen.queue ++ [⟨d, false⟩])
          ∧ ∀ n, s.properAt u = some n →
              Accepts (.dropConnect l) l tag (.ok [fWord "ACTIVE", fWord "PARKED"]) s [.dtb, .bjn, .attn, .olz] fun t =>
                Wrote [.connect d (some account) (some a) tiers] s t ∧ OnlyDrop d s t
                  ∧ t.drop d = { r with
                      link := some .parked, outage := some n
                      accrual := if s.credits n then some s.tmb.run else none }
                  ∧ t.olz = { s.olz with log := s.olz.log.map fun o => if o.number = n then o.oneMore else o })

/-- DROP.TIERS, DROP.SUSPEND and DROP.SEND (R68, R70, R71, R76): the checks in order; the record, the episode that a
suspension ends (R132), and the HOST request. DROP.SEND sets the attempts of a SETTLED or UNCONFIRMED drop to 0 whether it
becomes QUEUED or, in an outage, PARKED. -/
def Obligations.DropTiersSuspendSend : Prop :=
  (∀ (l : Lane) (tag : Byte) (args : List Text) (s : State), Takes .dropTiers l tag args s →
    Parsed (.dropTiers l) l tag s (two (argNum 0 2047) argTiers args) fun (d, tiers) =>
      let r := s.drop d
      Checked (.dropTiers l) l tag s
        [(r.service ≠ .active ∧ r.service ≠ .suspended, .state), (4096 - s.bjn.held.length ≤ 256, .journal),
          (r.service = .active ∧ NoPlaceFor r s, .full)]
        (let x := if r.service = .active then hostRequested d { r with tiers := tiers } s.aen.queue
            else ({ r with tiers := tiers }, s.aen.queue)
        Accepts (.dropTiers l) l tag (serviceWordsOf x.1) s [.dtb, .bjn, .attn, .queue] fun t =>
          Wrote [.tiers d r.account r.tiers tiers] s t ∧ OnlyDrop d s t ∧ (t.drop d, t.aen.queue) = x))
    ∧ (∀ (l : Lane) (tag : Byte) (args : List Text) (s : State), Takes .dropSuspend l tag args s →
        Parsed (.dropSuspend l) l tag s (one (argNum 0 2047) args) fun d =>
          let r := s.drop d
          Checked (.dropSuspend l) l tag s
            [(r.service ≠ .active, .state), (s.guarded (d / 256) = true, .guarded),
              (4096 - s.bjn.held.length ≤ 256, .journal), (NoPlaceFor r s, .full)]
            (let x := hostRequested d { r with service := .suspended, accrual := none } s.aen.queue
            Accepts (.dropSuspend l) l tag (serviceWordsOf x.1) s [.dtb, .bjn, .attn, .queue] fun t =>
              Wrote ([.suspend d r.account] ++ episodeCredit d r s) s t ∧ OnlyDrop d s t
                ∧ (t.drop d, t.aen.queue) = x))
    ∧ ∀ (l : Lane) (tag : Byte) (args : List Text) (s : State), Takes .dropSend l tag args s →
        Parsed (.dropSend l) l tag s (one (argNum 0 2047) args) fun d =>
          let r := s.drop d
          Checked (.dropSend l) l tag s
            [(r.service ≠ .active ∧ r.service ≠ .suspended, .state), (NoPlaceFor r s, .full)]
            (let free := r.link = some .settled ∨ r.link = some .unconfirmed
            let x := hostRequested d (if free then { r with attempts := 0 } else r) s.aen.queue
            Accepts (.dropSend l) l tag (serviceWordsOf x.1) s [.dtb, .queue] fun t =>
              OnlyDrop d s t ∧ (t.drop d, t.aen.queue) = x)

/-- DROP.DISCONNECT (R68, R73, R74): the checks in order; the DISCONNECT record and the credit of the episode it ends. A
drop in an outage becomes VACANT at once; any other becomes CLOSING with a HOST request. -/
def Obligations.DropDisconnectEffects : Prop :=
  ∀ (l : Lane) (tag : Byte) (args : List Text) (s : State), Takes .dropDisconnect l tag args s →
    Parsed (.dropDisconnect l) l tag s (one (argNum 0 2047) args) fun d =>
      let r := s.drop d
      Checked (.dropDisconnect l) l tag s
        [(r.service ≠ .active ∧ r.service ≠ .suspended, .state), (s.guarded (d / 256) = true, .guarded),
          (4096 - s.bjn.held.length ≤ 256, .journal),
          (NoPlaceFor r s, .full)]
        ((r.outage = none →
            let x := hostRequested d { r with service := .closing, accrual := none } s.aen.queue
            Accepts (.dropDisconnect l) l tag (serviceWordsOf x.1) s [.dtb, .bjn, .attn, .queue] fun t =>
              Wrote ([.disconnect d r.account] ++ episodeCredit d r s) s t ∧ OnlyDrop d s t
                ∧ (t.drop d, t.aen.queue) = x)
          ∧ ∀ n, r.outage = some n →
              Accepts (.dropDisconnect l) l tag (.ok [fWord "VACANT", fWord "-"]) s [.dtb, .bjn, .attn, .queue, .olz]
                fun t =>
                  Wrote ([.disconnect d r.account] ++ episodeCredit d r s) s t ∧ OnlyDrop d s t
                    ∧ t.drop d = { Drop.blank with
                        account := if 0 < r.pending then r.account else none, pending := r.pending }
                    ∧ t.aen.queue = (if r.link = some .queued then s.aen.queue.filter (fun e => e.drop != d)
                        else s.aen.queue)
                    ∧ t.olz = { s.olz with log := s.olz.log.map fun o => if o.number = n then o.oneFewer else o })

/-- DROP.RESUME and DROP.REASSIGN (R68, R72, R75): the checks in order, the verb's own changes, then the evaluation of
the drop (R134; TransitionOfOneDrop says what that does). That the resumption's request comes before the evaluation
is the model's reading (log 26), and that the evaluation starts an accrual as R131 says, also before the resumption, its
choice (log 49). -/
def Obligations.DropResumeAndReassign : Prop :=
  (∀ (l : Lane) (tag : Byte) (args : List Text) (s : State), Takes .dropResume l tag args s →
    Parsed (.dropResume l) l tag s (one (argNum 0 2047) args) fun d =>
      let r := s.drop d
      let free := r.link = some .settled ∨ r.link = some .unconfirmed
      Checked (.dropResume l) l tag s
        [(r.service ≠ .suspended, .state), (4096 - s.bjn.held.length ≤ 256, .journal),
          (((free ∧ r.outage = none) ∨ ((free ∨ r.link = some .parked) ∧ s.proper d = none))
            ∧ 64 ≤ s.aen.queue.length, .full)]
        (∃ u, Wrote [.resume d r.account] s u ∧ OnlyDrop d s u
          ∧ (u.drop d, u.aen.queue) = hostRequested d { r with
              service := .active
              accrual := if r.outage.any s.credits then some s.tmb.run else r.accrual }
            s.aen.queue
          ∧ OnlyChanges [.office, .dtb, .bjn, .attn, .queue] s u
          ∧ Accepts (.dropResume l) l tag (serviceWordsOf ((evaluateDrop d u).drop d)) s
              [.dtb, .bjn, .attn, .queue, .olz] fun t => OnlyChanges [.office, .marks] (evaluateDrop d u) t))
    ∧ ∀ (l : Lane) (tag : Byte) (args : List Text) (s : State), Takes .dropReassign l tag args s →
        Parsed (.dropReassign l) l tag s (two (argNum 0 2047) (argNum 0 511) args) fun (d, u) =>
          let r := s.drop d
          Checked (.dropReassign l) l tag s
            [(r.service = .vacant, .state), ((s.unit u).cfg.kind = .none, .args),
              (r.link = some .parked ∧ s.properAt u = none ∧ 64 ≤ s.aen.queue.length, .full)]
            (let v := evaluateDrop d ((popLine l s).setDrop d { r with feed := some u })
            Accepts (.dropReassign l) l tag (serviceWordsOf (v.drop d)) s [.dtb, .bjn, .attn, .queue, .olz] fun t =>
              OnlyChanges [.office, .marks, .dtb] v t ∧ OnlyDrop d v t
                ∧ t.drop d = if (v.drop d).link = some .awaiting then { v.drop d with stale := true } else v.drop d)

/-- The transition of one drop (R131 to R133, R80) from the outage it carries to `n`: the episode and its credit, the
last outage end, the link effects, the affected counts. The journal has a free record. And the evaluation of one drop
(R134): the transition to its proper outage, then the HOST request of a drop PARKED in no outage. -/
def Obligations.TransitionOfOneDrop : Prop :=
  (∀ (d : Nat) (target : Option Nat) (s : State), s.bjn.held.length < 4096 →
    let r := s.drop d
    let t := transition d target s
    let unqueued := if r.link = some .queued then s.aen.queue.filter (fun e => e.drop != d) else s.aen.queue
    let credited := if episodeCredit d r s = [] then t.bjn = s.bjn ∧ Raised [] s t else Wrote (episodeCredit d r s) s t
    (target = r.outage → t = s)
      ∧ (∀ n, target = some n → r.outage = none → r.service = .closing →
          OnlyChanges [.dtb, .queue] s t ∧ OnlyDrop d s t ∧ t.aen.queue = unqueued
            ∧ t.drop d = { Drop.blank with account := if 0 < r.pending then r.account else none, pending := r.pending })
      ∧ (∀ n, target = some n → r.outage = none → r.service ≠ .closing →
          OnlyChanges [.dtb, .queue, .olz] s t ∧ OnlyDrop d s t ∧ t.aen.queue = unqueued
            ∧ t.drop d = { r with
                outage := some n, accrual := accrualIn n r.service r.lastEnd s
                link := if r.link = some .queued then some .parked else r.link
                parkOnClose := if r.link = some .awaiting then true else r.parkOnClose }
            ∧ t.olz = { s.olz with log := s.olz.log.map fun o => if o.number = n then o.oneMore else o })
      ∧ (∀ m, target = none → r.outage = some m →
          OnlyChanges [.dtb, .olz, .bjn, .attn] s t ∧ OnlyDrop d s t ∧ credited
            ∧ t.drop d = { r with outage := none, accrual := none, lastEnd := some s.tmb.run, parkOnClose := false }
            ∧ t.olz = { s.olz with log := s.olz.log.map fun o => if o.number = m then o.oneFewer else o })
      ∧ ∀ m n, target = some n → r.outage = some m → m ≠ n →
          let kept := s.credits m = true ∧ s.credits n = true ∧ r.accrual ≠ none
          OnlyChanges [.dtb, .olz, .bjn, .attn] s t ∧ OnlyDrop d s t
            ∧ (kept → t.bjn = s.bjn ∧ Raised [] s t ∧ t.drop d = { r with outage := some n })
            ∧ (¬kept → credited ∧ t.drop d = { r with
                  outage := some n, accrual := accrualIn n r.service (some s.tmb.run) s, lastEnd := some s.tmb.run })
            ∧ t.olz = { s.olz with log := s.olz.log.map fun o =>
                if o.number = m then o.oneFewer else if o.number = n then o.oneMore else o })
    ∧ ∀ (d : Nat) (s : State),
        let u := transition d (s.proper d) s
        let t := evaluateDrop d s
        ((u.drop d).link ≠ some .parked ∨ (u.drop d).outage ≠ none → t = u)
          ∧ ((u.drop d).link = some .parked → (u.drop d).outage = none → u.aen.queue.length < 64 →
              OnlyChanges [.dtb, .queue] u t ∧ OnlyDrop d u t ∧ t.aen.queue = u.aen.queue ++ [⟨d, false⟩]
                ∧ t.drop d = { u.drop d with link := some .queued, attempts := 0 })

/-! ## The plant and its outages -/

/-- UNIT.SET (R106, R107, R116): the checks in order; the unit's fields by its kind before and after, and the end of its
poll when its kind or address changed. -/
def Obligations.UnitSetEffects : Prop :=
  ∀ (l : Lane) (tag : Byte) (args : List Text) (s : State), Takes .unitSet l tag args s →
    Parsed (.unitSet l) l tag s (argsUnitSet args) fun (u, kind, parent, address) =>
      let old := s.unit u
      Checked (.unitSet l) l tag s
        [(parent ≠ old.cfg.parent ∧ ∃ o ∈ s.olz.log, o.state ≠ .closed, .busy),
          (parentFits s u kind parent = false, .args),
          (kind = .none ∧ ((∃ d, (s.drop d).service ≠ .vacant ∧ (s.drop d).feed = some u)
            ∨ ∃ v, (s.unit v).cfg.kind ≠ .none ∧ (s.unit v).cfg.parent = some u), .inUse),
          (hasTransponder kind = false ∧ ∃ o ∈ s.olz.log, o.state ≠ .closed ∧ o.root = u, .inUse),
          (∃ a, address = some a
            ∧ ((∃ v, v ≠ u ∧ (s.unit v).cfg.kind ≠ .none ∧ (s.unit v).cfg.address = some a)
              ∨ ∃ d, (s.drop d).service ≠ .vacant ∧ (s.drop d).address = some a), .duplicate),
          (∃ a, address = some a ∧ old.cfg.address ≠ some a ∧ ∃ w ∈ s.csc.windows, w.address = a, .busy)]
        (let fresh : PlantUnit := ⟨⟨kind, parent, address, true⟩, .unknown, 0, none, false, none, false, false⟩
        let new : PlantUnit :=
          if kind = .none then ⟨⟨.none, none, none, false⟩, .unknown, 0, none, false, none, false, false⟩
          else if old.cfg.kind = .none then fresh
          else if hasTransponder kind = hasTransponder old.cfg.kind then
            { old with cfg := { old.cfg with kind := kind, parent := parent, address := address } }
          else { fresh with
            cfg := { fresh.cfg with inService := old.cfg.inService }
            state := if old.state = .excused ∨ old.state = .outOfService then old.state else .unknown }
        let ends := fun p : Poll => p.unit = u ∧ (kind ≠ old.cfg.kind ∨ address ≠ old.cfg.address)
        ((∀ p, s.ppl.poll = some p → ¬ends p) → Accepts (.unitSet l) l tag (.ok []) s [.ppl] fun t =>
            t.ppl = { s.ppl with units := t.ppl.units } ∧ ∀ v, t.unit v = if v = u then new else s.unit v)
          ∧ (∀ p, s.ppl.poll = some p → ends p → p.heldChange = false →
              Accepts (.unitSet l) l tag (.ok []) s [.ppl] fun t =>
                t.ppl = { pollEnded s with units := t.ppl.units } ∧ ∀ v, t.unit v = if v = u then new else s.unit v)
          ∧ ∀ p, s.ppl.poll = some p → ends p → p.heldChange = true →
              Accepts (.unitSet l) l tag (.ok []) s [.ppl, .olz, .attn] fun t =>
                ∃ v, OnlyChanges [.office, .ppl] s v ∧ v.ppl = { pollEnded s with units := v.ppl.units }
                  ∧ (∀ j, v.unit j = if j = u then new else s.unit j)
                  ∧ OnlyChanges [.office, .marks] (applyHeld u v) t)

/-- UNIT.SERVICE (R108, R116). A unit taken out of service while MISSING or SILENT is reported to OLZ (R115;
ReportsToTheLocalizer says what that does). A unit put into service while its state change is still held takes the
flag alone, which is the model's reading (log 24), as is the cycle IDLE at 0 when a poll ends outside RUN (log 36).
Last, what the application of a held change does to a unit (R116). -/
def Obligations.UnitServiceEffects : Prop :=
  (∀ (l : Lane) (tag : Byte) (args : List Text) (s : State), Takes .unitService l tag args s →
    Parsed (.unitService l) l tag s (two (argNum 0 511) argFlag args) fun (u, on) =>
      let r := s.unit u
      let cfg := { r.cfg with inService := on }
      let only := fun (x : PlantUnit) (t : State) => ∀ v, t.unit v = if v = u then x else s.unit v
      Checked (.unitService l) l tag s [(r.cfg.kind = .none, .args)]
        ((r.cfg.inService = on → Accepts (.unitService l) l tag (.ok []) s [] fun _ => True)
          ∧ (r.cfg.inService ≠ on → on = true → (∀ p, s.ppl.poll = some p → p.unit ≠ u) →
              Accepts (.unitService l) l tag (.ok []) s [.ppl] fun t =>
                t.ppl = { s.ppl with units := t.ppl.units }
                  ∧ only { r with
                      cfg := cfg, missed := 0, missingSince := none, unlogged := false
                      state := if ∃ o ∈ s.olz.log, o.state = .opened ∧ o.kind = .declared ∧ s.atOrBelow u o.root = true
                        then .excused else .unknown } t)
          ∧ (r.cfg.inService ≠ on → on = false → (∀ p, s.ppl.poll = some p → p.unit ≠ u) →
              Accepts (.unitService l) l tag (.ok []) s [.ppl, .olz, .attn] fun t =>
                ∃ v, OnlyChanges [.office, .ppl] s v ∧ v.ppl = { s.ppl with units := v.ppl.units }
                  ∧ only { r with
                      cfg := cfg, state := .outOfService, missed := 0, missingSince := none, unlogged := false } v
                  ∧ OnlyChanges [.office, .marks]
                      (if r.state = .missing ∨ r.state = .silent then unitRecovered u v else v) t)
          ∧ (∀ p, s.ppl.poll = some p → p.unit = u → r.cfg.inService ≠ on → (on = true ∨ p.windowOpen = true) →
              Accepts (.unitService l) l tag (.ok []) s [.ppl] fun t =>
                t.ppl = { s.ppl with
                    units := t.ppl.units, poll := some { p with heldChange := if on then p.heldChange else true } }
                  ∧ only { r with cfg := cfg } t)
          ∧ ∀ p, s.ppl.poll = some p → p.unit = u → r.cfg.inService ≠ on → on = false → p.windowOpen = false →
              Accepts (.unitService l) l tag (.ok []) s [.ppl, .olz, .attn] fun t =>
                ∃ v, OnlyChanges [.office, .ppl] s v ∧ v.ppl = { pollEnded s with units := v.ppl.units }
                  ∧ only { r with
                      cfg := cfg, state := .outOfService, missed := 0, missingSince := none, unlogged := false } v
                  ∧ OnlyChanges [.office, .marks]
                      (if r.state = .missing ∨ r.state = .silent then unitRecovered u v else v) t))
    ∧ ∀ (u : Nat) (s : State),
        let r := s.unit u
        let t := applyHeld u s
        let settled := fun (st : UnitState) (v : State) => OnlyChanges [.ppl] s v
          ∧ v.ppl = { s.ppl with units := v.ppl.units }
          ∧ ∀ j, v.unit j = if j = u then
              { r with state := st, missed := 0, missingSince := none, unlogged := false } else s.unit j
        let declared := ∃ o ∈ s.olz.log, o.state = .opened ∧ o.kind = .declared ∧ s.atOrBelow u o.root = true
        (r.cfg.kind = .none → t = s)
          ∧ (r.cfg.kind ≠ .none → r.cfg.inService = false → ∃ v, settled .outOfService v
              ∧ t = if r.state = .missing ∨ r.state = .silent then unitRecovered u v else v)
          ∧ (r.cfg.kind ≠ .none → r.cfg.inService = true → declared → settled .excused t)
          ∧ (r.cfg.kind ≠ .none → r.cfg.inService = true → ¬declared → t = s)

/-- OUTAGE.DECLARE and OUTAGE.END (R109, R116, R120, R125, R126). The number given is the first one from the next
number on that no record of the log holds. That a poll that ends outside RUN leaves the cycle IDLE at 0 is the model's
reading (log 36). -/
def Obligations.OutageDeclareAndEnd : Prop :=
  (∀ (l : Lane) (tag : Byte) (args : List Text) (s : State), Takes .outageDeclare l tag args s →
    Parsed (.outageDeclare l) l tag s (two (argNum 0 511) argFlag args) fun (u, credit) =>
      Checked (.outageDeclare l) l tag s
        [(hasTransponder (s.unit u).cfg.kind = false, .args),
          (∃ o ∈ s.olz.log, o.state = .opened
              ∧ (s.atOrBelow o.root u = true ∨ (o.kind = .declared ∧ s.atOrBelow u o.root = true)), .overlap),
          (64 ≤ s.olz.log.length ∧ s.olz.closedOrder = [], .full)]
        (∃ n, FirstFree s n
          ∧ Accepts (.outageDeclare l) l tag (.ok [fNum n]) s [.olz, .attn, .ppl] fun t =>
              t.olz = recordOpened n .declared credit u s.tmb.run
                  (if s.tmb.timeSet then some s.tmb.station else none) s
                ∧ Raised [.outage] s t
                ∧ (∀ v, Excuses s u v → (∀ p, s.ppl.poll = some p → p.unit = v → p.windowOpen = false) →
                    t.unit v = { s.unit v with state := .excused, missed := 0, missingSince := none, unlogged := false })
                ∧ (∀ v, (¬Excuses s u v ∨ ∃ p, s.ppl.poll = some p ∧ p.unit = v ∧ p.windowOpen = true) →
                    t.unit v = s.unit v)
                ∧ ((∀ p, s.ppl.poll = some p → ¬Excuses s u p.unit) → t.ppl = { s.ppl with units := t.ppl.units })
                ∧ (∀ p, s.ppl.poll = some p → Excuses s u p.unit → p.windowOpen = true →
                    t.ppl = { s.ppl with units := t.ppl.units, poll := some { p with heldChange := true } })
                ∧ ∀ p, s.ppl.poll = some p → Excuses s u p.unit → p.windowOpen = false →
                    t.ppl = { pollEnded s with units := t.ppl.units }))
    ∧ ∀ (l : Lane) (tag : Byte) (args : List Text) (s : State), Takes .outageEnd l tag args s →
        Parsed (.outageEnd l) l tag s (one (fun a => (argNum 1 65535 a).bind s.record) args) fun o =>
          Checked (.outageEnd l) l tag s [(o.kind ≠ .declared, .args), (o.state ≠ .opened, .state)]
            (Accepts (.outageEnd l) l tag (.ok []) s [.olz, .attn, .ppl] fun t =>
              t.olz = { s.olz with
                  settle := insertNumber o.number s.olz.settle
                  log := s.olz.log.map fun x => if x.number = o.number then { x with
                      state := .clearing, reason := some .ended, successors := [], more := false
                      closeStation := if s.tmb.timeSet then some s.tmb.station else none }
                    else x }
                ∧ Raised [.outage] s t ∧ t.ppl = { s.ppl with units := t.ppl.units }
                ∧ ∀ v, t.unit v =
                    if (s.unit v).state = .excused ∧ s.atOrBelow v o.root = true
                      ∧ ¬∃ x ∈ s.olz.log, x.number ≠ o.number ∧ x.state = .opened ∧ x.kind = .declared
                        ∧ s.atOrBelow v x.root = true then
                      { s.unit v with state := .unknown, missed := 0, missingSince := none, unlogged := false }
                    else s.unit v)

/-- What OLZ does with PPL's reports (R120, R122 to R124). A unit that enters SILENT: with an OPEN root on its path,
nothing; with no room in the log, the unlogged flag; and otherwise a SILENT record, which absorbs the OPEN SILENT records
below it. A unit that leaves MISSING or SILENT: nothing unless it is the root of an OPEN SILENT record; that record ends
CLEARED with no dark unit below it, and in general is split among its split roots, for which records are opened while the
log has room. What the split roots are (that a unit under an OPEN DECLARED root whose poll holds its excuse is one is the
model's reading, log 48). And the search for unlogged units when a record becomes CLOSED. -/
def Obligations.ReportsToTheLocalizer : Prop :=
  (∀ (u : Nat) (s : State), Rooted s u → enteredSilent u s = s)
    ∧ (∀ (u : Nat) (s : State), ¬Rooted s u → ¬LogHasRoom s →
        let t := enteredSilent u s
        OnlyChanges [.ppl, .attn] s t ∧ Raised [.outage] s t ∧ UnloggedWritten u true s t)
    ∧ (∀ (u : Nat) (s : State), ¬Rooted s u → LogHasRoom s → SilentOpened u s (enteredSilent u s))
    ∧ (∀ (u : Nat) (s : State), (∀ o ∈ s.olz.log, ¬(o.state = .opened ∧ o.kind = .silent ∧ o.root = u)) →
        unitRecovered u s = s)
    ∧ (∀ (o : Outage) (before after : List Outage) (s : State), s.olz.log = before ++ [o] ++ after →
        (∀ x ∈ before, ¬(x.state = .opened ∧ x.kind = .silent ∧ x.root = o.root)) →
        o.state = .opened → o.kind = .silent →
        let t := unitRecovered o.root s
        ((∀ v, s.below v o.root = true → (s.unit v).state ≠ .missing ∧ (s.unit v).state ≠ .silent) →
          OnlyChanges [.olz, .attn] s t ∧ Raised [.outage] s t
            ∧ t.olz = { s.olz with
                settle := insertNumber o.number s.olz.settle
                log := s.olz.log.map fun x => if x.number = o.number then x.endedAs .cleared [] false s else x })
        ∧ ∃ ns m, SplitsOpened o (splitRoots s o.root) ns s m
            ∧ OnlyChanges [.olz, .attn, .ppl] s t ∧ Raised [.outage] s t
            ∧ t.olz = { m.olz with
                settle := insertNumber o.number m.olz.settle
                log := m.olz.log.map fun x => if x.number = o.number then
                    x.endedAs (if ns = [] then .cleared else .split) (ns.take 8) (decide (8 < ns.length)) s
                  else x }
            ∧ t.ppl = { s.ppl with units := t.ppl.units }
            ∧ ∀ v, t.unit v = if v ∈ (splitRoots s o.root).drop ns.length ∧ (s.unit v).state = .silent then
                { m.unit v with unlogged := true } else m.unit v)
    ∧ (∀ (r : Nat) (s : State),
        let dark := fun v => (s.unit v).state = .missing ∨ (s.unit v).state = .silent
        (∀ u, u ∈ splitRoots s r ↔ s.below u r = true ∧ dark u
            ∧ ∀ v ∈ (s.path u).takeWhile (fun v => v != r), v ≠ u → ¬dark v)
          ∧ (Table.wf (fun _ => PlantUnit.blank) s.ppl.units → (splitRoots s r).Pairwise (· < ·)))
    ∧ ∀ (n : Nat) (s : State), ∃ m, OnlyChanges [.olz, .attn] s m ∧ Raised [.outage] s m
        ∧ m.olz = { s.olz with
            log := s.olz.log.map fun x => if x.number = n then { x with state := .closed } else x
            closedOrder := s.olz.closedOrder ++ [n] }
        ∧ Searched m.unitKeys m (closeRecord n s)

/-! ## The journal -/

/-- JOURNAL.RELEASE and PERIOD.CLOSE (R146, R148, R149): a release removes the records from the oldest through the number
it names, and gives the drain a full circuit. That PERIOD.CLOSE with an argument is answered ARGS, after BUSY and before
JOURNAL, is the model's choice (log 32). -/
def Obligations.JournalReleaseAndPeriodClose : Prop :=
  (∀ (l : Lane) (tag : Byte) (args : List Text) (s : State), Takes .journalRelease l tag args s →
    Parsed (.journalRelease l) l tag s (one argWord args) fun n =>
      ((∀ o, s.bjn.held.head? = some o → s.bjn.held.length ≤ (n - o.seq).toNat) →
          Refuses (.journalRelease l) l tag .range s)
        ∧ ∀ o i, s.bjn.held.head? = some o → i = (n - o.seq).toNat → i < s.bjn.held.length →
            Accepts (.journalRelease l) l tag (.ok [fNum (4096 - (s.bjn.held.length - (i + 1)))]) s [.bjn] fun t =>
              t.bjn = { s.bjn with held := s.bjn.held.drop (i + 1), drainLeft := some 2048 })
    ∧ ∀ (l : Lane) (tag : Byte) (args : List Text) (s : State), Takes .periodClose l tag args s →
        Parsed (.periodClose l) l tag s (noArgs args) fun _ =>
          Checked (.periodClose l) l tag s [(4096 ≤ s.bjn.held.length, .journal)]
            (let next := if 4294967295 ≤ s.bjn.period then 1 else s.bjn.period + 1
            Accepts (.periodClose l) l tag (.ok [fTime s.bjn.nextSeq, fNum next]) s [.bjn, .attn] fun t =>
              t.bjn.period = next
                ∧ Wrote [.period s.bjn.period] s { t with bjn := { t.bjn with period := s.bjn.period } })

/-- The drain (R149, R150): one visit, the stop at a full journal, and the end of the circuit. That the last visit leaves
a remaining count of 0, and IDLE comes with DRAIN_CIRCUIT_END, is the model's choice (log 3). -/
def Obligations.DrainWritesPendingCredit : Prop :=
  (∀ (s : State) (n : Nat), s.bjn.drainLeft = some (n + 1) →
    (s.sst.runState = .standby ∨ s.sst.runState = .run ∨ s.sst.runState = .stopping) →
    let d := s.bjn.drainCursor
    let r := s.drop d
    let after := fun b : Bjn =>
      { b with drainCursor := if 2047 ≤ d then 0 else d + 1, drainLeft := some n }
    (4096 ≤ s.bjn.held.length → Happens .drainVisit s [.bjn] fun t => t.bjn = { s.bjn with drainLeft := none })
      ∧ (s.bjn.held.length < 4096 → r.pending = 0 → Happens .drainVisit s [.bjn] fun t => t.bjn = after s.bjn)
      ∧ (s.bjn.held.length < 4096 → 0 < r.pending → Happens .drainVisit s [.bjn, .dtb, .attn] fun t =>
          t.bjn = after t.bjn
            ∧ Wrote [.credit d r.account none none none r.pending true] s
                { t with bjn := { t.bjn with drainCursor := d, drainLeft := some (n + 1) } }
            ∧ OnlyDrop d s t
            ∧ t.drop d = { r with pending := 0, account := if r.service = .vacant then none else r.account }))
    ∧ ∀ s : State, s.bjn.drainLeft = some 0 →
        Happens .drainCircuitEnd s [.bjn] fun t => t.bjn = { s.bjn with drainLeft := none }

/-! ## Time, parameters, run states -/

/-- TIME.SET (R155, R10, R11): station time SET and certain; every event in the state its times give; an EVENT wave for
each that ended, and the orders of the slots turned, in entry order (log 20); run seconds and the phase as they were. -/
def Obligations.TimeSetEffects : Prop :=
  ∀ (l : Lane) (tag : Byte) (args : List Text) (s : State), Takes .timeSet l tag args s →
    Parsed (.timeSet l) l tag s (one argWord args) fun now =>
      Accepts (.timeSet l) l tag (.ok []) s [.tmb, .lur, .mxp, .crs, .attn, .waves] fun t =>
        t.tmb = { s.tmb with station := now, timeSet := true, uncertain := false } ∧ EventsEvaluated now s t

/-- PARAM.SET, PARAM.READ and INTAKE.MODE: the owner stores the value; a write of REFRESH_STEP or POLL_CYCLE starts its
counter again. -/
def Obligations.ParameterAndModeVerbs : Prop :=
  (∀ (l : Lane) (tag : Byte) (args : List Text) (s : State), Takes .paramSet l tag args s →
    Parsed (.paramSet l) l tag s (argsParamSet args) fun (p, v) =>
      Accepts (.paramSet l) l tag (.ok [fParam p, fNum v]) s [.params, .rsw, .ppl] fun t =>
        t.params = p.write v s.params ∧ p.value t.params = v ∧ (∀ q, q ≠ p → q.value t.params = q.value s.params)
          ∧ t.rsw = (if p = .refreshStep then { s.rsw with counter := 0 } else s.rsw)
          ∧ t.ppl = (if p = .pollCycle then { s.ppl with timer := 0 } else s.ppl))
    ∧ (∀ (l : Lane) (tag : Byte) (a : Text) (s : State), Takes .paramRead l tag [a] s →
        (a = ascii "ALL" → Answers (.paramRead l) l tag
            (.ok ((paramWords.map fun e => [fWord e.1, fNum (e.2.value s.params)]).flatten)) s)
          ∧ (∀ e ∈ paramWords, a = ascii e.1 →
              Answers (.paramRead l) l tag (.ok [fWord e.1, fNum (e.2.value s.params)]) s)
          ∧ (a ≠ ascii "ALL" → (∀ e ∈ paramWords, a ≠ ascii e.1) → Answers (.paramRead l) l tag (.err .args) s))
    ∧ ∀ (l : Lane) (tag : Byte) (args : List Text) (s : State), Takes .intakeMode l tag args s →
        Parsed (.intakeMode l) l tag s (one (argWordOf intakeWords) args) fun m =>
          Accepts (.intakeMode l) l tag (.ok []) s [.pin] fun t => t.pin.mode = m

/-- RUN and STOP (R176, R110, R117): RUN starts a cycle at unit 0; STOP ends the cycle but for an open window, and with
no window open the part goes on to STANDBY at once (R53). A poll between two attempts ends, and a change held through it
is applied. That RUN and STOP check ARGS before STATE and TIME is the model's reading (log 32). -/
def Obligations.RunAndStop : Prop :=
  (∀ (l : Lane) (tag : Byte) (args : List Text) (s : State), Takes .run l tag args s →
    Checked (.run l) l tag s
      [(args ≠ [], .args), (s.sst.runState ≠ .standby, .state), (s.tmb.timeSet = false, .time)]
      (Accepts (.run l) l tag (.ok []) s [.sst, .ppl] fun t =>
        t.sst = { s.sst with runState := .run } ∧ t.ppl = { s.ppl with timer := 0, running := true, cursor := 0 }))
    ∧ ∀ (l : Lane) (tag : Byte) (args : List Text) (s : State), Takes .stop l tag args s →
        Checked (.stop l) l tag s [(args ≠ [], .args), (s.sst.runState ≠ .run, .state)]
          (let after : RunState := if s.csc.windows = [] then .standby else .stopping
          let idle : Ppl := { s.ppl with heldExpiry := false, running := false, cursor := 0, poll := none }
          ((∀ p, s.ppl.poll = some p → p.windowOpen = false ∧ p.heldChange = false) →
              Accepts (.stop l) l tag (.ok []) s [.sst, .ppl] fun t =>
                t.sst = { s.sst with runState := after } ∧ t.ppl = idle)
            ∧ (∀ p, s.ppl.poll = some p → p.windowOpen = true →
                Accepts (.stop l) l tag (.ok []) s [.sst, .ppl] fun t =>
                  t.sst = { s.sst with runState := after } ∧ t.ppl = { s.ppl with heldExpiry := false })
            ∧ ∀ p, s.ppl.poll = some p → p.windowOpen = false → p.heldChange = true →
                Accepts (.stop l) l tag (.ok []) s [.sst, .ppl, .olz, .attn] fun t =>
                  t.sst = { s.sst with runState := after } ∧ ∃ v, OnlyChanges [.office, .sst, .ppl] s v ∧ v.ppl = idle
                    ∧ OnlyChanges [.office, .marks, .sst] (applyHeld p.unit v) t)

/-- SETTINGS.SAVE, its operations and its failure (R167, R179, R180), and what the operations write: the sectors that the
erase covers, the body from 001000h on, the header's bytes 2 to 13, then the format version, of an image whose header says
its format, its body's length, its generation and its CRC-32 (R177). ARGS before STATE is the model's reading (log 32).
So are what stands on the flash after an accept, a completed save and a failed one (log 17), that a further operation of
the erase or of the body comes as an operand (log 18), the two stages of an abandoned save (log 19), and the body's bytes
as a free value (log 15). -/
def Obligations.SettingsSaveEffects : Prop :=
  (∀ (l : Lane) (tag : Byte) (args : List Text) (s : State), Takes .settingsSave l tag args s →
    Checked (.settingsSave l) l tag s
      [(args ≠ [], .args), (s.sst.runState ≠ .standby, .state), (FlashErases s, .busy)]
      (Begins (.settingsSave l) l s [.sst] (fun o => { o with saveTag := some tag }) fun t =>
        t.sst = { s.sst with runState := .saving, flash := .saving .erase, imageValid := false, held := .torn }))
    ∧ (∀ (ph next : SavePhase) (more : Bool) (s : State), s.sst.flash = .saving ph → s.sst.abandoned = false →
        ((ph = .erase ∧ next = if more then .erase else .body) ∨ (ph = .body ∧ next = if more then .body else .header)
          ∨ (ph = .header ∧ next = .version)) →
        Happens (.saveOperationEnd more) s [.sst] fun t => t.sst = { s.sst with flash := .saving next })
    ∧ (∀ (more : Bool) (s : State), s.sst.flash = .saving .version → s.sst.abandoned = false →
        let g := if 4294967295 ≤ s.sst.generation then 1 else s.sst.generation + 1
        Happens (.saveOperationEnd more) s [.sst, .office, .lur, .mxp, .crs, .attn, .waves] fun t =>
          t.sst = { s.sst with
              runState := .standby, flash := .idle, imageValid := true, generation := g, held := .image g (snapshot s) }
            ∧ ReplyGiven (.ok [fNum g]) s t ∧ EvaluatesAfterSave s t)
    ∧ (∀ (ph : SavePhase) (s : State), s.sst.flash = .saving ph → s.sst.abandoned = false →
        Happens .saveOperationTimeout s [.sst, .office, .lur, .mxp, .crs, .attn, .waves] fun t =>
          t.sst = { s.sst with
              runState := .standby, flash := .idle, imageValid := false
              held := if ph = .version then .asAttached else .torn }
            ∧ ReplyGiven (.err .flash) s t ∧ EvaluatesAfterSave s t)
    ∧ (∀ (ph : SavePhase) (more : Bool) (s : State), s.sst.flash = .saving ph → s.sst.abandoned = true →
        let q := fun t : State => t.sst = { s.sst with flash := .erasing .abandon, abandoned := false }
        Happens (.saveOperationEnd more) s [.sst] q ∧ Happens .saveOperationTimeout s [.sst] q)
    ∧ (∀ s : State, s.sst.flash = .erasing .abandon →
        Happens .abandonEraseEnd s [.sst] fun t => t.sst = { s.sst with flash := .idle })
    ∧ (∀ s : State, s.sst.abandoned = false →
        let g := if 4294967295 ≤ s.sst.generation then 1 else s.sst.generation + 1
        let body := imageBody (snapshot s)
        let header := imageHeader g body
        (s.sst.flash = .saving .erase → s.flashWork = some (.erase (List.range (1 + (body.length + 4095) / 4096))))
          ∧ (s.sst.flash = .saving .body → s.flashWork = some (.program 0x1000 body))
          ∧ (s.sst.flash = .saving .header → s.flashWork = some (.program 2 (header.drop 2)))
          ∧ (s.sst.flash = .saving .version → s.flashWork = some (.program 0 (header.take 2))))
    ∧ (∀ (c : EraseCause) (s : State), s.sst.flash = .erasing c → s.flashWork = some (.erase [0]))
    ∧ ∀ (g : Nat) (i : SavedImage), g ≤ 4294967295 →
        let body := imageBody i
        let header := imageHeader g body
        1 ≤ body.length ∧ body.length ≤ 1044480 ∧ header.length = 14 ∧ headerNumber header 0 2 = 1
          ∧ headerNumber header 2 4 = body.length ∧ headerNumber header 6 4 = g
          ∧ headerNumber header 10 4 = (crc32 body).toNat

/-- SETTINGS.CLEAR and the end of its erase (R167, R181). What stands on the flash while the erase runs and after it (also
after a time-out) is the model's reading (log 17), and so are ARGS before STATE (log 32) and BUSY while an abandoned save's
operation still runs (log 19). -/
def Obligations.SettingsClearEffects : Prop :=
  (∀ (l : Lane) (tag : Byte) (args : List Text) (s : State), Takes .settingsClear l tag args s →
    Checked (.settingsClear l) l tag s
      [(args ≠ [], .args), (s.sst.runState ≠ .standby, .state),
        (FlashErases s, .busy)]
      (Begins (.settingsClear l) l s [.sst] (fun o => { o with clearTag := some tag }) fun t =>
        t.sst = { s.sst with flash := .erasing .clear, held := .asAttached }))
    ∧ ∀ (tag : Byte) (s : State), s.sst.flash = .erasing .clear → s.ofp.clearTag = some tag →
        let ends := fun (c : Instr) (r : Reply) => Happens c s [.office, .sst] fun t =>
          t.sst = { s.sst with flash := .idle, imageValid := false, held := .erased }
            ∧ t.ofp = { s.ofp with outQ := s.ofp.outQ ++ [.reply .m tag r], clearTag := none }
        ends .clearEraseEnd (.ok []) ∧ ends .clearEraseTimeout (.err .flash)

/-- The warm reset (R182), block by block: R1, R6, R20, R22, R24, R38, R54, R62, R65, R86, R87, R105, R110, R117, R132,
R136, R139, R154, R168, R169, R172, R175. The accruing drops' episodes end, in ascending drop number (the model's choice,
log 47): a CREDIT record for each that earns one while the journal has a free record, and pending credit for the rest. Of
the clauses these rest on the model's log: whether JOURNAL and JFULL that these credits raise are cleared is a free value
(log 7), the stage in which an abandoned save stands (log 19), what had ENDED before the ALL wave (log 22), that wave
RUNNING at once (log 29), and a held reply that stays (log 35). -/
def Obligations.WarmResetLeaves : Prop :=
  (∀ (l : Lane) (tag : Byte) (args : List Text) (s : State), Takes .reset l tag args s → args ≠ [] →
    Refuses (.reset l) l tag .args s)
  ∧ ∀ (l : Lane) (tag : Byte) (s : State), Takes .reset l tag [] s → ∃ t, exec (.reset l) s = .next t
    ∧ t.ofp.outQ = s.ofp.outQ ++ [.reply l tag (.ok [])] ∧ (∀ k, t.ofp.inbox k = []) ∧ t.ofp.compat = false
    ∧ t.ofp.clearTag = s.ofp.clearTag
    ∧ (∀ k, (t.attn k).enabled = (s.attn k).enabled
        ∧ (k ≠ .journal → k ≠ .jfull → t.attn k = ⟨false, (s.attn k).enabled, false, false⟩))
    ∧ t.sst = (if s.sst.runState = .saving then
        { s.sst with runState := .standby, imageValid := false, abandoned := true }
        else { s.sst with runState := .standby })
    ∧ (s.sst.runState = .saving →
        t.ofp.held = s.ofp.saveTag.map (fun x => .reply .m x (.err .aborted)) ∧ t.ofp.saveTag = none)
    ∧ (s.sst.runState ≠ .saving → t.ofp.held = s.ofp.held ∧ t.ofp.saveTag = s.ofp.saveTag)
    ∧ t.tmb = s.tmb ∧ t.params = s.params ∧ t.pin = s.pin ∧ t.pending = s.pending ∧ t.urx.stray = none
    ∧ t.csc.windows = [] ∧ t.csc.floor = 0 ∧ t.csc.slotNumber = s.csc.slotNumber ∧ t.csc.granted = s.csc.granted
    ∧ t.csc.frame = s.csc.frame ∧ t.aen = ⟨[], [⟨.all, true, 0⟩], false, false⟩ ∧ t.rsw = ⟨0, false, 2047, [], false⟩
    ∧ t.ppl = ⟨t.ppl.units, 0, false, false, 0, none⟩
    ∧ (∀ u, t.unit u = if (s.unit u).cfg.kind = .none then s.unit u
        else { s.unit u with
          state := if (s.unit u).cfg.inService then .unknown else .outOfService
          missed := 0, missingSince := none, unlogged := false })
    ∧ t.olz = ⟨[], [], s.olz.nextNumber, [], [], 0, false⟩
    ∧ (∀ d, ((s.drop d).service = .active ∨ (s.drop d).service = .suspended) →
        t.drop d = { s.drop d with
          link := some .unconfirmed, attempts := 0, misses := 0, stale := false, parkOnClose := false, outage := none
          accrual := none, lastEnd := if (s.drop d).outage = none then (s.drop d).lastEnd else some s.tmb.run
          pending := (t.drop d).pending }
        ∧ min 4294967295 (s.drop d).pending ≤ (t.drop d).pending)
    ∧ (∀ d, (s.drop d).service = .closing → t.drop d = { Drop.blank with
        account := if 0 < (t.drop d).pending then (s.drop d).account else none, pending := (t.drop d).pending })
    ∧ (∀ d, (s.drop d).service = .vacant → t.drop d = { s.drop d with
        outage := none, accrual := none
        lastEnd := if (s.drop d).outage = none then (s.drop d).lastEnd else some s.tmb.run
        pending := (t.drop d).pending })
    ∧ t.dtb.guards = s.dtb.guards
    ∧ (Table.wf (fun _ => Drop.blank) s.dtb.drops →
        let earning := s.dropKeys.filter fun d => episodeCredit d (s.drop d) s ≠ []
        let paid := earning.take (4096 - s.bjn.held.length)
        t.bjn = journalWith (paid.map fun d => episodeCredit d (s.drop d) s).flatten s
          ∧ ∀ d, (t.drop d).pending = if d ∈ earning ∧ d ∉ paid then
              min 4294967295 ((s.drop d).pending + episodeMinutes (s.drop d) s) else (s.drop d).pending)
    ∧ (∀ k, (t.slot k).cfg = (s.slot k).cfg ∧ (t.slot k).latch = false ∧ (t.slot k).carried = none
        ∧ (t.slot k).fault = false ∧ Resolved k t)
    ∧ t.lur.override = { s.lur.override with active := false, ready := false }
    ∧ (¬(s.sst.runState = .saving ∧ s.tmb.timeSet = true) → ∀ k, t.event k = (s.event k).map fun e =>
        { e with endedBeforeAll := decide (e.state = .ended) })
    ∧ (∀ k, t.source k = { s.source k with presence := .present, misses := 0, goods := 0 })
    ∧ t.mxp = ⟨(t.slotKeys.filter fun k => (t.slot k).cfg.enabled).map fun k => ⟨k, (t.slot k).resolved⟩, none, false,
        .read⟩
    ∧ t.crs = { s.crs with
        mode := .cycle, cursor := 0, burst := 0, mapPages := t.crs.mapPages, eventPages := t.crs.eventPages }
    ∧ (∀ n, n < 10 → t.mapPageHeld n = mapPage t n) ∧ ∀ n, n < 4 → t.eventPageHeld n = eventPage t n

/-! ## The office line -/

/-- LINE_RECEIVED and LINE_OVERFLOW (R162, R163, R165): what is discarded with LINK attention, and the judgment of a line
whose lane and tag parse. A reply at arrival takes a free place or is dropped with LINK. -/
def Obligations.LinesReceived : Prop :=
  (∀ s : State, Happens .lineOverflow s [.attn] (Raised [.link] s))
    ∧ (∀ (chars : List Byte) (framing : Bool) (s : State), chars.contains lineFeed = false →
        (framing = true ∨ chars.getLast? ≠ some 0x0D#8 ∨ 200 < chars.length + 1 ∨ readHead chars.dropLast = none) →
        Happens (.lineReceived chars framing) s [.attn] (Raised [.link] s))
    ∧ ∀ (chars rest : List Byte) (l : Lane) (tag : Byte) (s : State), chars.contains lineFeed = false →
        chars.getLast? = some 0x0D#8 → chars.length + 1 ≤ 200 → readHead chars.dropLast = some (l, tag, rest) →
        let judged := fun (pre : Text) => ∃ c d, chars.dropLast = pre ++ [0x20#8, 0x2A#8, c, d]
          ∧ hexPair c d = some ((pre ++ [0x20#8]).foldl (fun a b => a ^^^ b) 0#8)
        let answers := fun why : Reason =>
          (s.ofp.outQ.length + (if s.ofp.clearTag.isSome then 1 else 0) < 16 →
              Happens (.lineReceived chars false) s [.office] fun t =>
                t.ofp = { s.ofp with outQ := s.ofp.outQ ++ [.reply l tag (.err why)] })
            ∧ (16 ≤ s.ofp.outQ.length + (if s.ofp.clearTag.isSome then 1 else 0) →
                Happens (.lineReceived chars false) s [.attn] (Raised [.link] s))
        ((∀ pre, ¬judged pre) → answers .check)
          ∧ ∀ pre, judged pre →
              (s.sst.runState = .loading → answers .loading)
              ∧ (s.sst.runState ≠ .loading → 4 ≤ (s.ofp.inbox l).length → answers .full)
              ∧ (s.sst.runState ≠ .loading → (s.ofp.inbox l).length < 4 →
                  Happens (.lineReceived chars false) s [.office] fun t =>
                    (∀ k, t.ofp.inbox k = if k = l then s.ofp.inbox k ++ [⟨tag, pre.drop 3⟩] else s.ofp.inbox k)
                      ∧ t.ofp.outQ = s.ofp.outQ ∧ t.ofp.held = s.ofp.held ∧ t.ofp.saveTag = s.ofp.saveTag
                      ∧ t.ofp.clearTag = s.ofp.clearTag ∧ t.ofp.compat = s.ofp.compat)

/-- LINE_SENT, DEFERRED_REPLY_APPEND and NOTICE_APPEND (R167, R169): each completes on these conditions. A held deferred
reply takes the first free place, and until then a notice waits, also with more places free (log 12). A notice names every
kind of the announce set. -/
def Obligations.LinesSentAndAppended : Prop :=
  (∀ s : State, Happens .lineSent s [.office] fun t => t.ofp = { s.ofp with outQ := s.ofp.outQ.tail })
    ∧ (∀ (o : OutLine) (s : State), s.ofp.held = some o →
        s.ofp.outQ.length + (if s.ofp.clearTag.isSome then 1 else 0) < 16 →
        Happens .deferredReplyAppend s [.office] fun t =>
          t.ofp = { s.ofp with outQ := s.ofp.outQ ++ [o], held := none })
    ∧ (∀ (o : OutLine) (s : State), s.ofp.held = some o → exec .noticeAppend s = .next s)
    ∧ ∀ s : State, (∃ k, (s.attn k).due = true) →
        s.ofp.held = none → s.ofp.outQ.length + (if s.ofp.clearTag.isSome then 1 else 0) < 16 →
        Happens .noticeAppend s [.office, .attn] fun t =>
          t.ofp.outQ = s.ofp.outQ ++ [.notice (Kind.all.filter fun k => (s.attn k).due)]
            ∧ (∀ k, t.attn k =
                if (s.attn k).due then { s.attn k with announced := true, due := false } else s.attn k)
            ∧ { t.ofp with attn := s.ofp.attn, outQ := s.ofp.outQ } = s.ofp

/-! ## Power-on and loading -/

/-- POWER_ON and LOAD_END (R175, R177 to R181): what judges the image, the tables the owners take, and the entry to
STANDBY. The header and the body that are read decide, on a flash the part has not written and after a complete save alike;
a flash that delivers what that save wrote loads it with its generation. After a save that has not completed the result is
INVALID and after a clear BLANK; a header of FFh alone, as of a flash that does not answer, is BLANK. That POWER_ON keeps
what stands on the flash, the draws and the waiting commands is the model's (log 17). So are how the bytes of a body say
its content (log 15) and the range check (log 16), the bit order of the CRC-32 (log 40), the ALL wave RUNNING at the entry
to STANDBY (log 29), and that a generation count of 0 loads (log 50). What a blank image gives is `blankImage`. -/
def Obligations.PowerOnAndLoad : Prop :=
  (∀ s : State, exec .powerOn s = .next { State.reset with
    sst := { State.reset.sst with held := s.sst.held }, draws := s.draws, pending := s.pending })
    ∧ ∀ (r : FlashRead) (s : State), s.sst.runState = .loading → s.aen.waves = [] → r.header.length = 14 →
        let len := headerNumber r.header 2 4
        let blank := ∀ b ∈ r.header, b = 0xFF#8
        let holds := fun i : SavedImage => headerNumber r.header 0 2 = 1 ∧ 1 ≤ len ∧ len ≤ 1044480
          ∧ len ≤ r.body.length ∧ (crc32 (r.body.take len)).toNat = headerNumber r.header 10 4 ∧ r.content = some i
          ∧ imageFits i = true
        (blank → Loads r s .blank 0 none)
          ∧ (¬blank → (s.sst.held = .asAttached ∨ ∃ g i, s.sst.held = .image g i) →
              (∀ i, holds i → Loads r s .loaded (headerNumber r.header 6 4) (some i))
                ∧ ((∀ i, ¬holds i) → Loads r s .invalid 0 none))
          ∧ (¬blank → s.sst.held = .torn → Loads r s .invalid 0 none)
          ∧ (¬blank → s.sst.held = .erased → Loads r s .blank 0 none)
          ∧ ∀ g i, s.sst.held = .image g i → g ≤ 4294967295 → r = imageRead g i →
              (imageFits i = true → Loads r s .loaded g (some i)) ∧ (imageFits i = false → Loads r s .invalid 0 none)

/-! ## Slots, seconds and counters -/

/-- A boundary outside RUN at which no window closes (R40, R41, R53, R88, R154): the slot number, FILLER, the phase, the
refresh count, and the end of STOPPING. That nothing is owed first is the model's premise (log 3). -/
def Obligations.BoundaryOutsideRun : Prop :=
  ∀ s : State, NothingOwed s → s.tmb.advanceDue = false → s.sst.runState ≠ .run →
    (∀ w ∈ s.csc.windows, some w.closing ≠ s.csc.slotNumber) →
    Happens .slotBoundary s [.csc, .tmb, .rsw, .sst] fun t =>
      t.csc = { s.csc with
          slotNumber := some (slotAfter s), granted := none, frame := some ⟨0x00#8, allTerminals, []⟩
          marks := t.csc.marks }
        ∧ t.tmb = phaseCounted s.tmb ∧ t.rsw = refreshCounted s
        ∧ t.sst = if s.sst.runState = .stopping ∧ s.csc.windows = [] then { s.sst with runState := .standby } else s.sst

/-- The grant of a boundary in RUN at which no window closes (R42 to R45, R21, R57, R67, R91, R112): the first sender in
rank order that may be granted, what its owner does, its frame, the window, and the floor count; each sender's mark says
what its owner's state gives (log 8). That nothing is owed first is the model's premise (log 3). -/
def Obligations.GrantInRun : Prop :=
  ∀ s : State, NothingOwed s → s.tmb.advanceDue = false → s.sst.runState = .run →
    (∀ w ∈ s.csc.windows, some w.closing ≠ s.csc.slotNumber) →
    let m : State := { s with rsw := refreshCounted s }
    let ready : Sender → Bool := fun x => match x with
      | .alert => s.lur.override.active && s.lur.override.ready
      | .carousel => s.nextEntry.isSome
      | .authorize => (s.offered .authorize).isSome
      | .poll => (s.offered .poll).isSome
      | .refresh => (m.offered .refresh).isSome
    ∃ t, exec .slotBoundary s = .next t ∧ GrantTaken ready m t

/-- The misses of a boundary (R46). The miss of an authorization in STOPPING, the last window open (R53, R66, R79):
the window goes, the drop takes the first case of R79's table that holds, and the part enters STANDBY. In every run
state, the windows due hand their misses to their owners in opening order after the refresh count, and then the slot
begins: with FILLER outside RUN, and in RUN with a grant on marks of which each says what its owner's state gave
before the misses or gives after them (R43; a free value, log 6). What the three owners do with a miss: R79 for AUTH
(also where R81's closing sentence says otherwise, the model's choice, log 52), R93 and R94 for REFRESH, R114, R116
and R117 for POLL. That a POLL window belongs to the poll in progress by unit and address is the model's reading (log
23). That nothing is owed first is the model's premise (log 3). -/
def Obligations.LastMissInStopping : Prop :=
  (∀ (w : Window) (s : State), NothingOwed s → s.tmb.advanceDue = false → s.sst.runState = .stopping →
    s.csc.windows = [w] → some w.closing = s.csc.slotNumber → w.kind = .auth →
    Happens .slotBoundary s [.csc, .tmb, .rsw, .sst, .dtb, .queue, .attn, .olz] fun t =>
      t.sst = { s.sst with runState := .standby } ∧ t.csc.windows = [] ∧ t.csc.slotNumber = some (w.closing + 1)
        ∧ ∃ m, OnlyChanges [.dtb, .queue, .attn, .olz] s m ∧ AuthMissed w.owner s m
            ∧ OnlyChanges [.csc, .marks, .tmb, .rsw, .sst] m t)
    ∧ (∀ s : State, NothingOwed s → s.tmb.advanceDue = false → s.sst.runState ≠ .run →
        ∃ t, exec .slotBoundary s = .next t ∧ FillerBegun (missesTaken s) t)
    ∧ (∀ s : State, NothingOwed s → s.tmb.advanceDue = false → s.sst.runState = .run →
        let m := missesTaken s
        let before := ({ s with rsw := refreshCounted s } : State).owedMarks
        ∃ held t, (∀ x, held x = before.ready x ∨ held x = m.owedMarks.ready x)
          ∧ exec .slotBoundary s = .next t ∧ GrantTaken held m t)
    ∧ ∀ (w : Window) (s : State),
        (w.kind = .auth → AuthMissed w.owner s (handMiss w s))
          ∧ (w.kind = .refresh → RefreshMissed w.owner s (handMiss w s))
          ∧ (w.kind = .poll → PollMissed w s (handMiss w s))

/-- The second advance, the refresh counter's expiry and the poll cycle (R88, R110, R111, R154, R10). The first run
second of a poll record before attempt 1 is granted is the model's 0 (log 46); what is owed and counted is log 3 and
4, the order of the events log 20. -/
def Obligations.SecondsAndCycles : Prop :=
  (∀ s : State, NothingOwed s → s.tmb.advanceDue = true →
    Happens .secondAdvance s [.tmb, .ppl, .lur, .mxp, .crs, .attn, .waves] fun t =>
      t.tmb = { s.tmb with advanceDue := false, run := s.tmb.run + 1, station := s.tmb.station + 1 }
        ∧ t.ppl = (if s.sst.runState = .run then { s.ppl with timer := s.ppl.timer + 1 } else s.ppl)
        ∧ (s.tmb.timeSet = true ∧ s.sst.runState ≠ .saving →
            EventsEvaluated (s.tmb.station + 1) s t)
        ∧ (¬(s.tmb.timeSet = true ∧ s.sst.runState ≠ .saving) → OnlyChanges [.tmb, .ppl, .marks] s t))
    ∧ (∀ s : State, s.sst.runState ≠ .loading → s.rsw.counted = false → s.params.refreshStep ≤ s.rsw.counter + 1 →
        Happens .refreshCounterExpiry s [.rsw] fun t =>
          t.rsw = { s.rsw with counter := 0, request := true, counted := true })
    ∧ (∀ s : State, s.sst.runState = .run → s.params.pollCycle ≤ s.ppl.timer →
        Happens .pollCycleExpiry s [.ppl] fun t =>
          t.ppl = if s.ppl.running then { s.ppl with timer := 0, heldExpiry := true }
            else { s.ppl with timer := 0, running := true, cursor := 0 })
    ∧ (∀ s : State, s.sst.runState = .run → s.ppl.running = true → s.ppl.poll = none → s.ppl.cursor < 512 →
        let u := s.ppl.cursor
        let r := s.unit u
        let pollable := (r.cfg.kind = .trunkAmp ∨ r.cfg.kind = .bridger ∨ r.cfg.kind = .lineExt)
          ∧ r.cfg.inService = true ∧ r.state ≠ .excused
        (∀ a, pollable → r.cfg.address = some a → Happens .pollBegin s [.ppl] fun t => ∃ f,
            t.ppl = { s.ppl with poll := some ⟨u, a,
              if ∃ o ∈ s.olz.log, o.state = .opened ∧ o.kind = .silent ∧ o.root ≠ u ∧ s.atOrBelow u o.root = true then 1
                else s.params.pollTries, 1, false, f, false⟩ })
          ∧ (¬pollable → Happens .pollBegin s [.ppl] fun t => t.ppl = { s.ppl with cursor := u + 1 }))
    ∧ ∀ s : State, s.sst.runState = .run → s.ppl.running = true → s.ppl.poll = none → 512 ≤ s.ppl.cursor →
        Happens .pollCycleEnd s [.ppl] fun t =>
          t.ppl = if s.ppl.heldExpiry then { s.ppl with heldExpiry := false, cursor := 0 }
            else { s.ppl with running := false }

/-- The reference monitor (R157, R158, R160): edges, samples, the start-up window and the return. A sample is judged when
the samples before it owe nothing (log 3). -/
def Obligations.ReferenceMonitor : Prop :=
  (∀ s : State, Happens .referenceEdge s [.tmb] fun t => t.tmb = { s.tmb with edge := true })
    ∧ (∀ s : State, s.tmb.clock = .reference → ¬(s.tmb.startup = true ∧ 1000 ≤ s.tmb.startupSamples) →
        (s.tmb.edge = true → Happens .monitorSample s [.tmb] fun t => t.tmb = { s.tmb with edge := false })
          ∧ (s.tmb.edge = false → Happens .monitorSample s [.tmb, .attn] fun t =>
              t.tmb = { s.tmb with clock := .internal, goodRun := 0, uncertain := true } ∧ Raised [.timebase] s t))
    ∧ (∀ s : State, s.tmb.clock = .internal → ¬(s.tmb.startup = true ∧ 1000 ≤ s.tmb.startupSamples) →
        (s.tmb.startup = true ∨ s.tmb.goodRun < 1000) → Happens .monitorSample s [.tmb] fun t =>
          t.tmb = { s.tmb with
            edge := false, goodRun := if s.tmb.edge then min 1000 (s.tmb.goodRun + 1) else 0
            startupSamples := if s.tmb.startup then s.tmb.startupSamples + 1 else s.tmb.startupSamples })
    ∧ (∀ s : State, s.tmb.startup = true → 1000 ≤ s.tmb.startupSamples →
        Happens .startupWindowClose s [.tmb] fun t =>
          t.tmb = { s.tmb with startup := false, clock := if 1000 ≤ s.tmb.goodRun then .reference else .internal })
    ∧ ∀ s : State, s.tmb.startup = false → s.tmb.clock = .internal → 1000 ≤ s.tmb.goodRun →
        Happens .referenceReturn s [.tmb, .attn] fun t =>
          t.tmb = { s.tmb with clock := .reference } ∧ Raised [.timebase] s t

/-! ## Upstream -/

/-- Frames that are discarded, and strays with their causes (R47, R48, R51, R56). That a frame of the wrong kind for a
window opened in the slot in progress is EARLY is the model's choice (log 45). -/
def Obligations.UpstreamStrays : Prop :=
  (∀ (bytes : List Byte) (s : State),
    (s.sst.runState = .loading ∨ ∀ f : Frame, f.body.length ≤ 120 → bytes ≠ f.bytes) →
    exec (.upstreamFrame bytes) s = .next s)
    ∧ ∀ (f : Frame) (c : StrayCause) (s : State), s.sst.runState ≠ .loading → f.body.length ≤ 120 → IsStray f s c →
        (∀ x, s.urx.stray = some x → Happens (.upstreamFrame f.bytes) s [] fun _ => True)
          ∧ (s.urx.stray = none → Happens (.upstreamFrame f.bytes) s [.urx, .attn] fun t =>
              t.urx.stray = some ⟨c, f.address, f.kind, if s.tmb.timeSet then some s.tmb.station else none, s.tmb.run⟩
                ∧ Raised [.stray] s t)

/-- Answers (R49, R78, R92, R94, R98 to R100, R113, R124). An ACK settles its drop, vacates a CLOSING one, and asks
again for a stale one: PARKED in an outage, at the tail of the queue, or with no place UNCONFIRMED, or VACANT when
CLOSING. An ACK that carries a purchase, to either kind of window, does what the ACK without one does, and then PIN
takes the purchase: the judgment of R98's table, and what each of its four outcomes does. A purchase that is TAKEN is
journalled and queued urgent. A STATUS makes its unit ANSWERING, is reported to OLZ when the unit was MISSING or
SILENT, and ends the poll. Which POLL window is that of the poll in progress is log 23. -/
def Obligations.UpstreamAnswers : Prop :=
  (∀ (w : Window) (s : State), AwaitsAnswer w s → w.kind ≠ .poll → (s.drop w.owner).stale = false →
    (s.drop w.owner).service ≠ .vacant →
    let d := w.owner
    let r := s.drop d
    Happens (.upstreamFrame (Frame.bytes ⟨0x81#8, w.address, [0#8]⟩)) s [.csc, .sst, .dtb, .rsw, .queue, .olz] fun t =>
      WindowClosed w s t ∧ OnlyDrop d s t
        ∧ t.rsw = (if w.kind = .refresh then
            { s.rsw with outstanding := s.rsw.outstanding.filter fun o => o.drop != d } else s.rsw)
        ∧ (r.service ≠ .closing → t.drop d = settledDrop s r ∧ t.aen.queue = s.aen.queue ∧ t.olz = s.olz)
        ∧ (r.service = .closing → t.drop d =
            { Drop.blank with account := if 0 < r.pending then r.account else none, pending := r.pending }))
    ∧ (∀ (w : Window) (p : Byte) (k : Nat) (e : Event) (s : State), AwaitsAnswer w s → w.kind = .auth → p ≠ 0#8 →
        let d := w.owner
        let r := s.drop d
        r.service = .active → r.stale = false → r.outage = none → s.pin.mode = .normal → s.bjn.held.length < 3840 →
        s.findEvent p.toNat = some (k, e) → (e.state = .ordering ∨ e.state = .showing) → p.toNat ∉ r.events →
        r.events.length < 4 → s.aen.queue.length < 64 →
        Happens (.upstreamFrame (Frame.bytes ⟨0x81#8, w.address, [p]⟩)) s [.csc, .sst, .dtb, .queue, .bjn, .attn]
          fun t =>
            WindowClosed w s t ∧ OnlyDrop d s t
              ∧ t.drop d = { settledDrop s r with link := some .queued, events := r.events ++ [p.toNat] }
              ∧ t.aen.queue = s.aen.queue.filter (fun q => q.urgent) ++ [⟨d, true⟩]
                  ++ s.aen.queue.filter (fun q => !q.urgent)
              ∧ t.bjn = { s.bjn with
                  held := s.bjn.held ++ [⟨s.bjn.nextSeq, s.tmb.station, s.tmb.uncertain,
                    .purchase d r.account p.toNat e.cfg.price⟩]
                  nextSeq := s.bjn.nextSeq + 1 }
              ∧ Raised (if 4096 - (s.bjn.held.length + 1) ≤ s.params.journalWatermark then [.purchase, .journal]
                  else [.purchase]) s t)
    ∧ (∀ (w : Window) (s : State), AwaitsAnswer w s → w.kind ≠ .poll → (s.drop w.owner).stale = true →
        (s.drop w.owner).service ≠ .vacant →
        let d := w.owner
        let r := s.drop d
        let x := settledDrop s r
        Happens (.upstreamFrame (Frame.bytes ⟨0x81#8, w.address, [0#8]⟩)) s [.csc, .sst, .dtb, .rsw, .queue, .attn]
          fun t =>
            WindowClosed w s t ∧ OnlyDrop d s t
              ∧ t.rsw = (if w.kind = .refresh then
                  { s.rsw with outstanding := s.rsw.outstanding.filter fun o => o.drop != d } else s.rsw)
              ∧ (r.outage ≠ none → t.drop d = { x with link := some .parked } ∧ t.aen.queue = s.aen.queue
                  ∧ Raised [] s t)
              ∧ (r.outage = none → s.aen.queue.length < 64 → t.drop d = { x with link := some .queued }
                  ∧ t.aen.queue = s.aen.queue ++ [⟨d, false⟩] ∧ Raised [] s t)
              ∧ (r.outage = none → 64 ≤ s.aen.queue.length → t.aen.queue = s.aen.queue
                  ∧ t.drop d = (if r.service = .closing then vacatedRecord r else { x with link := some .unconfirmed })
                  ∧ Raised (if r.service = .closing ∨ w.kind = .auth then [.auth] else [.refresh]) s t))
    ∧ (∀ (w : Window) (p : Byte) (s : State), AwaitsAnswer w s → w.kind ≠ .poll → ∃ t0 t,
        exec (.upstreamFrame (Frame.bytes ⟨0x81#8, w.address, [0#8]⟩)) s = .next t0
          ∧ exec (.upstreamFrame (Frame.bytes ⟨0x81#8, w.address, [p]⟩)) s = .next t
          ∧ OnlyChanges [.marks] (purchase w.owner p.toNat t0) t)
    ∧ (∀ (d p : Nat) (s : State),
        let r := s.drop d
        let t := purchase d p s
        let asks := s.aen.queue.length < 64 ∨ r.link = some .queued
        let asked := if asks then urgentlyRequested d r s.aen.queue else (r, s.aen.queue)
        (p = 0 → t = s)
          ∧ (p ≠ 0 → verdictOn d p s = .deferred → t = s)
          ∧ (p ≠ 0 → verdictOn d p s = .denied → OnlyChanges [.dtb, .queue, .attn] s t ∧ Raised [.purchase] s t
              ∧ OnlyDrop d s t ∧ (t.drop d, t.aen.queue) = asked)
          ∧ (p ≠ 0 → verdictOn d p s = .repeated → OnlyChanges [.dtb, .queue] s t
              ∧ OnlyDrop d s t ∧ (t.drop d, t.aen.queue) = asked)
          ∧ (p ≠ 0 → verdictOn d p s = .taken → OnlyChanges [.dtb, .queue, .attn, .bjn] s t ∧ OnlyDrop d s t
              ∧ (t.drop d, t.aen.queue) = urgentlyRequested d { r with events := r.events ++ [p] } s.aen.queue
              ∧ (∀ k e, s.findEvent p = some (k, e) →
                  t.bjn = journalWith [.purchase d r.account p e.cfg.price] s)
              ∧ Raised (if 4096 - (s.bjn.held.length + 1) ≤ s.params.journalWatermark then [.purchase, .journal]
                  else [.purchase]) s t))
    ∧ (∀ (w : Window) (p : Poll) (a b c : Byte) (s : State), AwaitsAnswer w s → w.kind = .poll →
        s.ppl.poll = some p → p.windowOpen = true → p.unit = w.owner → p.address = w.address →
        a.toNat ≤ 2 → b.toNat ≤ 2 → -30 ≤ c.toInt → c.toInt ≤ 50 →
        let r := s.unit p.unit
        Happens (.upstreamFrame (Frame.bytes ⟨0x82#8, w.address, [a, b, c]⟩)) s [.csc, .sst, .ppl, .attn, .olz]
          fun t => WindowClosed w s t ∧ ∃ m, OnlyChanges [.ppl, .attn] s m ∧ m.ppl = { s.ppl with units := m.ppl.units }
            ∧ (∀ v, m.unit v = if v = p.unit then
                { r with
                  state := .answering, missed := 0, missingSince := none, unlogged := false
                  last := some ⟨a.toNat, b.toNat, c.toInt⟩, power := a.toNat != 0, level := b.toNat != 0 }
                else s.unit v)
            ∧ Raised (if (a.toNat != 0) = r.power ∧ (b.toNat != 0) = r.level then [] else [.plant]) s m
            ∧ OnlyChanges [.csc, .marks, .sst]
                (pollOver p (if r.state = .missing ∨ r.state = .silent then unitRecovered p.unit m else m)) t)
    ∧ ∀ (w : Window) (p : Poll) (a b c : Byte) (s : State), AwaitsAnswer w s → w.kind = .poll → s.sst.runState = .run →
        s.ppl.poll = some p → p.windowOpen = true → p.unit = w.owner → p.address = w.address → p.heldChange = false →
        a.toNat ≤ 2 → b.toNat ≤ 2 → -30 ≤ c.toInt → c.toInt ≤ 50 →
        let r := s.unit p.unit
        r.state ≠ .missing → r.state ≠ .silent →
        Happens (.upstreamFrame (Frame.bytes ⟨0x82#8, w.address, [a, b, c]⟩)) s [.csc, .ppl, .attn] fun t =>
          WindowClosed w s t ∧ t.ppl = { s.ppl with units := t.ppl.units, poll := none, cursor := s.ppl.cursor + 1 }
            ∧ (∀ v, t.unit v = if v = p.unit then
                { r with
                  state := .answering, missed := 0, missingSince := none, unlogged := false
                  last := some ⟨a.toNat, b.toNat, c.toInt⟩, power := a.toNat != 0, level := b.toNat != 0 }
                else s.unit v)
            ∧ Raised (if (a.toNat != 0) = r.power ∧ (b.toNat != 0) = r.level then [] else [.plant]) s t

/-! ## The switch matrix -/

/-- The matrix port (R27 to R31, R33 to R35): samples and issues, answers and time-outs, the bytes of the transactions, the
presence table, and what LUR does with a loss and a return (R6 to R8, R18, R20, R32): the latches, FALLBACK, EMERGENCY on
the loss of the alert source, and the slots resolved again with their orders. That a sample is judged whole before its
reports are taken, and these in ascending source number, is the model's reading (log 21); the ascending order of the slots
resolved again is its choice (log 44). Source 0 is the slate, which is not monitored. -/
def Obligations.MatrixPort : Prop :=
  (∀ s : State, s.sst.runState ≠ .loading →
    Happens .sampleDue s [.mxp] fun t => t.mxp = { s.mxp with readDue := true })
    ∧ (∀ s : State, s.sst.runState ≠ .loading → s.mxp.flight = none →
        let read := Happens .matrixIssue s [.mxp] fun t =>
          t.mxp = { s.mxp with flight := some .read, readDue := false, last := .read }
        (s.mxp.queue = [] → s.mxp.readDue = false → Happens .matrixIssue s [] fun _ => True)
          ∧ (s.mxp.queue = [] → s.mxp.readDue = true → read)
          ∧ (s.mxp.queue ≠ [] → s.mxp.readDue = true → s.mxp.last = .order → read)
          ∧ ∀ o q, s.mxp.queue = o :: q → (s.mxp.readDue = false ∨ s.mxp.last = .read) →
              Happens .matrixIssue s [.mxp] fun t =>
                t.mxp = { s.mxp with queue := q, flight := some (.order o.slot o.source 1), last := .order })
    ∧ (∀ (counts : List Byte) (s : State), counts.length = 48 → s.mxp.flight = some .read →
        Happens (.activityReadAnswer counts) s [.mxp, .smn, .lur, .crs, .attn] fun t =>
          let lost := fun k => (s.source k).presence ≠ .lost ∧ (t.source k).presence = .lost
          let back := fun k => ((s.source k).presence = .lost ∨ (s.source k).presence = .returning)
            ∧ (t.source k).presence = .present
          t.mxp = { s.mxp with flight := none, queue := t.mxp.queue }
            ∧ (∀ k, t.source k =
                if k < 48 ∧ (s.source k).cfg.monitored = true then
                  sampledSource s.params ((counts.getD k 0#8) != 0#8) (s.source k) else s.source k)
            ∧ ((∃ k, lost k ∨ back k) → t.attn .source = (s.attn .source).raised)
            ∧ ((¬∃ k, lost k ∨ back k) → Raised [] s t ∧ t.lur = s.lur ∧ t.crs = s.crs ∧ t.mxp.queue = s.mxp.queue)
            ∧ (∀ j, (s.slot j).cfg.primary ≠ 0 → lost (s.slot j).cfg.primary → (t.slot j).latch = true
                ∧ ((s.slot j).latch = false → Resolved j t ∧ t.attn .fallback = (s.attn .fallback).raised))
            ∧ (∀ j, (s.slot j).cfg.primary ≠ 0 → back (s.slot j).cfg.primary →
                (t.slot j).latch = ((s.slot j).latch && !(s.slot j).cfg.autoRestore) ∧ Resolved j t)
            ∧ ∃ m, OnlyChanges [.mxp, .smn] s m ∧ m.mxp = { s.mxp with flight := none } ∧ m.smn = t.smn
                ∧ OnlyChanges [.marks] ((List.range 48).foldl
                    (fun u k => presenceReported k (s.source k).presence (t.source k).presence u) m) t)
    ∧ (∀ (k : Nat) (b : Bool) (s : State), k ≠ 0 →
        let t := sourceLost k b s
        let fresh := fun j => (s.slot j).cfg.primary = k ∧ (s.slot j).latch = false
        let kinds : List Kind := (if s.lur.override.active = true ∧ s.lur.override.source = k then [.emergency] else [])
        OnlyChanges [.lur, .mxp, .crs, .attn] s t ∧ t.crs.eventPages = s.crs.eventPages
          ∧ ((∃ j, fresh j) → Raised (.fallback :: kinds) s t) ∧ ((¬∃ j, fresh j) → Raised kinds s t)
          ∧ ∃ v, LatchesWritten fresh true s v ∧ Reresolved (fun j => decide (fresh j) || (b && usesSource s k j)) v t)
    ∧ (∀ (k : Nat) (s : State), k ≠ 0 →
        let t := sourceReturned k s
        let restored := fun j => (s.slot j).cfg.primary = k ∧ (s.slot j).cfg.autoRestore = true
        OnlyChanges [.lur, .mxp, .crs] s t ∧ t.crs.eventPages = s.crs.eventPages
          ∧ ∃ v, LatchesWritten restored false s v ∧ Reresolved (usesSource s k) v t)
    ∧ (∀ slot source issue : Nat, (Flight.order slot source issue).bytes
          = [0x01#8, BitVec.ofNat 8 slot, BitVec.ofNat 8 source])
    ∧ Flight.bytes .read = [0x02#8]
    ∧ (∀ s : State, s.mxp.flight = some .read → Happens .activityReadTimeout s [.mxp, .attn] fun t =>
        t.mxp = { s.mxp with flight := none } ∧ Raised [.matrix] s t)
    ∧ (∀ (k x issue : Nat) (s : State), s.mxp.flight = some (.order k x issue) →
        Happens .switchAnswered s [.mxp, .lur] fun t =>
          t.mxp = { s.mxp with flight := none } ∧ t.lur.events = s.lur.events ∧ t.lur.override = s.lur.override
            ∧ ∀ j, t.slot j = if j = k then { s.slot k with carried := some x, fault := false } else s.slot j)
    ∧ (∀ (k x : Nat) (s : State), s.mxp.flight = some (.order k x 1) → Happens .switchTimeout s [.mxp] fun t =>
        t.mxp = { s.mxp with flight := some (.order k x 2) })
    ∧ (∀ (k x : Nat) (s : State), s.mxp.flight = some (.order k x 2) →
        Happens .switchTimeout s [.mxp, .lur, .attn] fun t =>
          t.mxp = { s.mxp with flight := none } ∧ t.lur.events = s.lur.events ∧ t.lur.override = s.lur.override
            ∧ (∀ j, t.slot j = if j = k then { s.slot k with carried := none, fault := true } else s.slot j)
            ∧ Raised [.matrix] s t)
    ∧ ∀ s : State, exec .lateMatrixAnswer s = .next s

/-! ## Background passes -/

/-- The wave engine (R66, R82 to R85, R14): a WAITING head starts, a visit strips, matches and requests, and a complete
wave sets cleanup flags. A paused engine visits its drop afresh once fewer than 56 entries stand, or behind the request of
a settle pass that had paused beside it (log 27). What "had ENDED before" is held in is log 22. -/
def Obligations.WaveEngine : Prop :=
  (∀ (w : Wave) (ws : List Wave) (s : State), Advances s → s.aen.waves = w :: ws → w.running = false →
    (s.aen.paused = true → s.aen.owed = true ∨ (s.aen.queue.length < 56 ∧ s.olz.paused = false)) →
    exec .waveVisit s = exec .waveVisit (startHead s)
      ∧ OnlyChanges [.waves, .lur] s (startHead s)
      ∧ (startHead s).aen.waves = { w with running := true, cursor := 0 } :: ws
      ∧ ∀ k, (startHead s).event k = if w.criterion = .all then
          (s.event k).map fun e => { e with endedBeforeAll := decide (e.state = .ended) } else s.event k)
    ∧ (∀ (w : Wave) (ws : List Wave) (s : State), Advances s → s.aen.waves = w :: ws → w.running = true →
        w.cursor < 2048 → (s.aen.paused = true → s.aen.owed = true ∨ (s.aen.queue.length < 56 ∧ s.olz.paused = false)) →
        let d := w.cursor
        let r := s.drop d
        let ids : List Nat := match w.criterion with
          | .tiers _ => r.events
          | .event id => r.events.filter fun x => x != id
          | .all => r.events.filter fun x => !((s.findEvent x).any fun e => e.2.state == .ended)
        let matched := r.service = .active ∧ match w.criterion with
          | .tiers m => (r.tiers ||| 1#16) &&& m ≠ 0#16
          | .event id => id ∈ r.events
          | .all => True
        let x : Drop :=
          { r with events := ids, stale := r.stale || (r.link == some .awaiting && decide (ids ≠ r.events)) }
        let moves := fun (t : State) (y : Drop) => OnlyDrop d s t ∧ t.drop d = y ∧ t.aen.paused = false
          ∧ t.aen.owed = false ∧ t.aen.waves = { w with cursor := d + 1 } :: ws
        (r.service = .vacant → Happens .waveVisit s [.waves] fun t => moves t r)
          ∧ (r.service ≠ .vacant → ¬matched → Happens .waveVisit s [.waves, .dtb] fun t => moves t x)
          ∧ (matched → r.link = some .queued ∨ r.link = some .parked →
              Happens .waveVisit s [.waves, .dtb] fun t => moves t x)
          ∧ (matched → r.link = some .awaiting →
              Happens .waveVisit s [.waves, .dtb] fun t => moves t { x with stale := true })
          ∧ (matched → r.link = some .settled ∨ r.link = some .unconfirmed → r.outage ≠ none →
              Happens .waveVisit s [.waves, .dtb] fun t => moves t { x with link := some .parked })
          ∧ (matched → r.link = some .settled ∨ r.link = some .unconfirmed → r.outage = none → s.aen.queue.length < 56 →
              Happens .waveVisit s [.waves, .dtb, .queue] fun t =>
                moves t { x with link := some .queued, attempts := 0 } ∧ t.aen.queue = s.aen.queue ++ [⟨d, false⟩])
          ∧ (matched → r.link = some .settled ∨ r.link = some .unconfirmed → r.outage = none → 56 ≤ s.aen.queue.length →
              Happens .waveVisit s [.waves, .dtb] fun t =>
                OnlyDrop d s t ∧ t.drop d = x ∧ t.aen.paused = true ∧ t.aen.owed = false ∧ t.aen.waves = w :: ws))
    ∧ ∀ (w : Wave) (ws : List Wave) (s : State), Advances s → s.aen.waves = w :: ws → w.running = true →
        2048 ≤ w.cursor →
        let starts := ws.head?.any fun v => !v.running && v.criterion == .all
        Happens .waveComplete s [.waves, .lur] fun t =>
          t.aen.paused = false ∧ t.aen.owed = false
            ∧ t.aen.waves = (match ws with
              | [] => []
              | v :: vs => (if v.running then v else { v with running := true, cursor := 0 }) :: vs)
            ∧ t.lur.slots = s.lur.slots ∧ t.lur.override = s.lur.override
            ∧ ∀ k, t.event k = (s.event k).map fun e => { e with
                cleanup := e.cleanup || (e.state == .ended && match w.criterion with
                  | .tiers _ => false
                  | .event id => e.cfg.id == id
                  | .all => e.endedBeforeAll)
                endedBeforeAll := if starts then decide (e.state = .ended) else e.endedBeforeAll }

/-- The settle pass (R127 to R130, R66): its start, a visit with its pause, and its end when no unit waits unlogged; the
transition itself is that of TransitionOfOneDrop, and the search for unlogged units that of ReportsToTheLocalizer. A visit
of a paused pass beside a paused wave engine leaves the engine its visit afresh (log 27). The next pass starting within
SETTLE_PASS_END (log 38) and the ascending order of closing (log 25) are the model's readings. -/
def Obligations.SettlePass : Prop :=
  (∀ s : State, Advances s → s.olz.taken = [] → s.olz.settle ≠ [] →
    Happens .settlePassStart s [.olz] fun t => t.olz = passStarted s s.olz)
    ∧ (∀ s : State, Advances s → s.olz.taken ≠ [] → s.olz.cursor < 2048 →
        (s.olz.paused = true → s.aen.queue.length < 56) →
        let d := s.olz.cursor
        let r := s.drop d
        let isTaken := fun n : Option Nat => ∃ k b, n = some k ∧ (k, b) ∈ s.olz.taken
        let engine := fun t : State => t.aen.waves = s.aen.waves ∧ t.aen.paused = s.aen.paused
          ∧ t.aen.owed = (s.aen.owed || (s.olz.paused && s.aen.paused))
        let visit := fun u : State =>
          Happens .settleVisit s [.olz, .dtb, .queue, .bjn, .attn, .waves] fun t => engine t
            ∧ ((u.drop d).link ≠ some .parked ∨ (u.drop d).outage ≠ none → OnlyChanges [.marks, .olz, .waves] u t
                ∧ t.olz = { u.olz with cursor := d + 1, paused := false })
              ∧ ((u.drop d).link = some .parked → (u.drop d).outage = none → u.aen.queue.length < 56 →
                  OnlyChanges [.marks, .olz, .dtb, .queue, .waves] u t ∧ OnlyDrop d u t
                    ∧ t.drop d = { u.drop d with link := some .queued, attempts := 0 }
                    ∧ t.aen.queue = u.aen.queue ++ [⟨d, false⟩]
                    ∧ t.olz = { u.olz with cursor := d + 1, paused := false })
              ∧ ((u.drop d).link = some .parked → (u.drop d).outage = none → 56 ≤ u.aen.queue.length →
                  OnlyChanges [.marks, .olz, .waves] u t ∧ t.olz = { u.olz with cursor := d, paused := true })
        (r.service = .vacant → Happens .settleVisit s [.olz, .waves] fun t => engine t
            ∧ t.olz = { s.olz with cursor := d + 1, paused := false })
          ∧ (r.service ≠ .vacant → r.outage ≠ s.proper d → (isTaken r.outage ∨ isTaken (s.proper d)) →
              visit (transition d (s.proper d) s))
          ∧ (r.service ≠ .vacant → (r.outage = s.proper d ∨ ¬(isTaken r.outage ∨ isTaken (s.proper d))) → visit s))
    ∧ ∀ s : State, Advances s → s.olz.taken ≠ [] → 2048 ≤ s.olz.cursor →
        (∀ u, (s.unit u).unlogged = false) →
        let closing := (s.olz.taken.filter fun x => x.2).map fun x => x.1
        Happens .settlePassEnd s [.olz, .attn] fun t =>
          let o : Olz := { s.olz with
            log := s.olz.log.map fun x => if x.number ∈ closing then { x with state := .closed } else x
            closedOrder := s.olz.closedOrder ++ closing, taken := [], paused := false }
          t.olz = (if s.olz.settle = [] then o else passStarted { s with olz := o } o)
            ∧ Raised (if closing = [] then [] else [.outage]) s t

/-! ## Frames -/

/-- The authorization of a drop and a frame's bytes (R56 to R58): the slot set, the hold-off, the event ids; the header
and the check. -/
def Obligations.AuthorizationContent : Prop :=
  (∀ (r : Drop) (s : State), r.service = .active →
    let b := authorizationOf s r
    b.length = 13 + r.events.length
      ∧ (∀ k, 1 ≤ k → k ≤ 80 → ((b.getD ((k - 1) / 8) 0#8).getLsbD ((k - 1) % 8) = true ↔
          (s.slot k).cfg.enabled = true ∧ ((s.slot k).cfg.tier = 0 ∨ r.tiers.getLsbD (s.slot k).cfg.tier = true
            ∨ ∃ id ∈ r.events, ∃ n e, s.findEvent id = some (n, e) ∧ e.cfg.slot = k)))
      ∧ b.drop 10 = [BitVec.ofNat 8 (s.params.holdoff / 256), BitVec.ofNat 8 s.params.holdoff,
          BitVec.ofNat 8 r.events.length] ++ r.events.map (BitVec.ofNat 8))
    ∧ (∀ (r : Drop) (s : State), r.service = .suspended → authorizationOf s r
        = List.replicate 10 0#8 ++ [BitVec.ofNat 8 (s.params.holdoff / 256), BitVec.ofNat 8 s.params.holdoff, 0#8])
    ∧ (∀ (r : Drop) (s : State), r.service = .closing → authorizationOf s r = List.replicate 13 0#8)
    ∧ ∀ f : Frame, ∃ hi lo, f.bytes
        = [f.kind, BitVec.ofNat 8 (f.address.toNat / 65536), BitVec.ofNat 8 (f.address.toNat / 256),
            BitVec.ofNat 8 f.address.toNat, BitVec.ofNat 8 f.body.length] ++ f.body ++ [hi, lo]
        ∧ hi.toNat * 256 + lo.toNat = (crc16 (f.bytes.take (5 + f.body.length))).toNat
end

