-- ==== Sys2Proof/Laws/Table.lean ====
section
/-! SUPPORT. Sparse tables: what a read gives after a write, and that every write keeps the canonical form. -/

namespace Sys2Proof.Laws

open Sys2Proof.Machine

variable {α : Type}

theorem find_erase_same (t : Table α) (k : Nat) : Table.find (Table.erase t k) k = none := by
  induction t with
  | nil => rfl
  | cons e t ih =>
    unfold Table.erase at ih ⊢
    by_cases h : e.1 = k
    · simpa [List.filter_cons, h] using ih
    · simpa [List.filter_cons, h, Table.find] using ih

theorem find_erase_ne (t : Table α) {j k : Nat} (h : j ≠ k) : Table.find (Table.erase t k) j = Table.find t j := by
  induction t with
  | nil => rfl
  | cons e t ih =>
    unfold Table.erase at ih ⊢
    by_cases hk : e.1 = k
    · have hj : e.1 ≠ j := fun hj => h (hj.symm.trans hk)
      have hf : (e :: t).filter (fun x => x.1 != k) = t.filter fun x => x.1 != k := by simp [hk]
      rw [hf, ih]
      simp [Table.find, hj]
    · have hf : (e :: t).filter (fun x => x.1 != k) = e :: t.filter fun x => x.1 != k := by simp [hk]
      rw [hf]
      by_cases hj : e.1 = j <;> simp [Table.find, hj, ih]

theorem ne_of_mem_erase {t : Table α} {k : Nat} {e : Nat × α} (h : e ∈ Table.erase t k) : e.1 ≠ k := by
  simp only [Table.erase, List.mem_filter, bne_iff_ne, ne_eq] at h
  exact h.2

theorem find_insert_same (t : Table α) (k : Nat) (v : α) (h : ∀ e ∈ t, e.1 ≠ k) :
    Table.find (Table.insert t k v) k = some v := by
  induction t with
  | nil => simp [Table.insert, Table.find]
  | cons e t ih =>
    by_cases hlt : k < e.1
    · simp [Table.insert, hlt, Table.find]
    · have he := h e (by simp)
      simpa [Table.insert, hlt, Table.find, he] using ih fun x hx => h x (by simp [hx])

theorem find_insert_ne (t : Table α) {j k : Nat} (v : α) (h : j ≠ k) :
    Table.find (Table.insert t k v) j = Table.find t j := by
  induction t with
  | nil => simp [Table.insert, Table.find, h.symm]
  | cons e t ih =>
    by_cases hlt : k < e.1
    · simp [Table.insert, hlt, Table.find, h.symm]
    · simp [Table.insert, hlt, Table.find, ih]

variable [DecidableEq α]

/-- Reading the number written gives what was written. -/
theorem get_set_same (b : Nat → α) (t : Table α) (k : Nat) (v : α) : Table.get b (Table.set b t k v) k = v := by
  unfold Table.get Table.set
  by_cases h : v = b k
  · simp [h, find_erase_same]
  · simp [h, find_insert_same _ k v fun e he => ne_of_mem_erase he]

/-- Reading another number gives what it gave. -/
theorem get_set_ne (b : Nat → α) (t : Table α) {j k : Nat} (v : α) (h : j ≠ k) :
    Table.get b (Table.set b t k v) j = Table.get b t j := by
  unfold Table.get Table.set
  by_cases hv : v = b k
  · simp [hv, find_erase_ne t h]
  · simp [hv, find_insert_ne _ v h, find_erase_ne t h]

theorem get_set (b : Nat → α) (t : Table α) (j k : Nat) (v : α) :
    Table.get b (Table.set b t k v) j = if j = k then v else Table.get b t j := by
  by_cases h : j = k
  · subst h
    simp [get_set_same]
  · simp [h, get_set_ne b t v h]

theorem wf_nil (b : Nat → α) : Table.wf b ([] : Table α) := ⟨List.Pairwise.nil, by simp⟩

theorem wf_erase {b : Nat → α} {t : Table α} (k : Nat) (h : Table.wf b t) : Table.wf b (Table.erase t k) :=
  ⟨h.1.filter _, fun e he => h.2 e (List.mem_of_mem_filter he)⟩

omit [DecidableEq α] in
theorem mem_insert {t : Table α} {k : Nat} {v : α} {e : Nat × α} (h : e ∈ Table.insert t k v) : e = (k, v) ∨ e ∈ t := by
  induction t with
  | nil => simpa [Table.insert] using h
  | cons x t ih =>
    by_cases hlt : k < x.1
    · simpa [Table.insert, hlt] using h
    · simp only [Table.insert, hlt, if_false, List.mem_cons] at h
      rcases h with rfl | h
      · simp
      · rcases ih h with h' | h' <;> simp [h']

theorem wf_insert {b : Nat → α} {t : Table α} {k : Nat} {v : α} (h : Table.wf b t) (hk : ∀ e ∈ t, e.1 ≠ k)
    (hv : v ≠ b k) : Table.wf b (Table.insert t k v) := by
  refine ⟨?_, fun e he => ?_⟩
  · induction t with
    | nil => simp [Table.insert]
    | cons x t ih =>
      have hp := List.pairwise_cons.mp h.1
      by_cases hlt : k < x.1
      · simp only [Table.insert, hlt, if_true, List.pairwise_cons]
        exact ⟨by
          intro e he
          rcases List.mem_cons.mp he with rfl | he
          · exact hlt
          · exact lt_trans hlt (hp.1 e he), hp.1, hp.2⟩
      · simp only [Table.insert, hlt, if_false, List.pairwise_cons]
        refine ⟨fun e he => ?_, ih ⟨hp.2, fun e he => h.2 e (by simp [he])⟩ fun e he => hk e (by simp [he])⟩
        rcases mem_insert he with rfl | he
        · exact lt_of_le_of_ne (Nat.le_of_not_lt hlt) (hk x (by simp))
        · exact hp.1 e he
  · rcases mem_insert he with rfl | he
    · exact hv
    · exact h.2 e he

/-- A write keeps the canonical form. -/
theorem wf_set {b : Nat → α} {t : Table α} (k : Nat) (v : α) (h : Table.wf b t) : Table.wf b (Table.set b t k v) := by
  unfold Table.set
  by_cases hv : v = b k
  · simpa [hv] using wf_erase k h
  · simpa [hv] using wf_insert (wf_erase k h) (fun e he => ne_of_mem_erase he) hv

theorem wf_foldl_set {b : Nat → α} (l : List (Nat × α)) {t : Table α} (h : Table.wf b t) :
    Table.wf b (l.foldl (fun t e => Table.set b t e.1 e.2) t) := by
  induction l generalizing t with
  | nil => exact h
  | cons e l ih => exact ih (wf_set e.1 e.2 h)

/-- A load gives a table in the canonical form. -/
theorem wf_ofList (b : Nat → α) (l : List (Nat × α)) : Table.wf b (Table.ofList b l) := wf_foldl_set l (wf_nil b)

end Sys2Proof.Laws
end

