-- ==== Sys2Proof/Laws/State.lean ====
section
/-! SUPPORT. The updates of State: what each leaves alone, field by field, and what a read gives after a write. -/

namespace Sys2Proof.Laws

open Sys2Proof.Machine

@[simp] theorem setDrop_ofp (s : State) (d : Nat) (r : Drop) : (s.setDrop d r).ofp = s.ofp := rfl
@[simp] theorem setDrop_tmb (s : State) (d : Nat) (r : Drop) : (s.setDrop d r).tmb = s.tmb := rfl
@[simp] theorem setDrop_smn (s : State) (d : Nat) (r : Drop) : (s.setDrop d r).smn = s.smn := rfl
@[simp] theorem setDrop_mxp (s : State) (d : Nat) (r : Drop) : (s.setDrop d r).mxp = s.mxp := rfl
@[simp] theorem setDrop_lur (s : State) (d : Nat) (r : Drop) : (s.setDrop d r).lur = s.lur := rfl
@[simp] theorem setDrop_crs (s : State) (d : Nat) (r : Drop) : (s.setDrop d r).crs = s.crs := rfl
@[simp] theorem setDrop_csc (s : State) (d : Nat) (r : Drop) : (s.setDrop d r).csc = s.csc := rfl
@[simp] theorem setDrop_urx (s : State) (d : Nat) (r : Drop) : (s.setDrop d r).urx = s.urx := rfl
@[simp] theorem setDrop_aen (s : State) (d : Nat) (r : Drop) : (s.setDrop d r).aen = s.aen := rfl
@[simp] theorem setDrop_rsw (s : State) (d : Nat) (r : Drop) : (s.setDrop d r).rsw = s.rsw := rfl
@[simp] theorem setDrop_pin (s : State) (d : Nat) (r : Drop) : (s.setDrop d r).pin = s.pin := rfl
@[simp] theorem setDrop_ppl (s : State) (d : Nat) (r : Drop) : (s.setDrop d r).ppl = s.ppl := rfl
@[simp] theorem setDrop_olz (s : State) (d : Nat) (r : Drop) : (s.setDrop d r).olz = s.olz := rfl
@[simp] theorem setDrop_bjn (s : State) (d : Nat) (r : Drop) : (s.setDrop d r).bjn = s.bjn := rfl
@[simp] theorem setDrop_sst (s : State) (d : Nat) (r : Drop) : (s.setDrop d r).sst = s.sst := rfl
@[simp] theorem setDrop_params (s : State) (d : Nat) (r : Drop) : (s.setDrop d r).params = s.params := rfl
@[simp] theorem setDrop_draws (s : State) (d : Nat) (r : Drop) : (s.setDrop d r).draws = s.draws := rfl
@[simp] theorem setDrop_pending (s : State) (d : Nat) (r : Drop) : (s.setDrop d r).pending = s.pending := rfl

@[simp] theorem setSlot_ofp (s : State) (k : Nat) (r : Slot) : (s.setSlot k r).ofp = s.ofp := rfl
@[simp] theorem setSlot_tmb (s : State) (k : Nat) (r : Slot) : (s.setSlot k r).tmb = s.tmb := rfl
@[simp] theorem setSlot_smn (s : State) (k : Nat) (r : Slot) : (s.setSlot k r).smn = s.smn := rfl
@[simp] theorem setSlot_mxp (s : State) (k : Nat) (r : Slot) : (s.setSlot k r).mxp = s.mxp := rfl
@[simp] theorem setSlot_crs (s : State) (k : Nat) (r : Slot) : (s.setSlot k r).crs = s.crs := rfl
@[simp] theorem setSlot_csc (s : State) (k : Nat) (r : Slot) : (s.setSlot k r).csc = s.csc := rfl
@[simp] theorem setSlot_urx (s : State) (k : Nat) (r : Slot) : (s.setSlot k r).urx = s.urx := rfl
@[simp] theorem setSlot_dtb (s : State) (k : Nat) (r : Slot) : (s.setSlot k r).dtb = s.dtb := rfl
@[simp] theorem setSlot_aen (s : State) (k : Nat) (r : Slot) : (s.setSlot k r).aen = s.aen := rfl
@[simp] theorem setSlot_rsw (s : State) (k : Nat) (r : Slot) : (s.setSlot k r).rsw = s.rsw := rfl
@[simp] theorem setSlot_pin (s : State) (k : Nat) (r : Slot) : (s.setSlot k r).pin = s.pin := rfl
@[simp] theorem setSlot_ppl (s : State) (k : Nat) (r : Slot) : (s.setSlot k r).ppl = s.ppl := rfl
@[simp] theorem setSlot_olz (s : State) (k : Nat) (r : Slot) : (s.setSlot k r).olz = s.olz := rfl
@[simp] theorem setSlot_bjn (s : State) (k : Nat) (r : Slot) : (s.setSlot k r).bjn = s.bjn := rfl
@[simp] theorem setSlot_sst (s : State) (k : Nat) (r : Slot) : (s.setSlot k r).sst = s.sst := rfl
@[simp] theorem setSlot_params (s : State) (k : Nat) (r : Slot) : (s.setSlot k r).params = s.params := rfl
@[simp] theorem setSlot_draws (s : State) (k : Nat) (r : Slot) : (s.setSlot k r).draws = s.draws := rfl
@[simp] theorem setSlot_pending (s : State) (k : Nat) (r : Slot) : (s.setSlot k r).pending = s.pending := rfl

@[simp] theorem setEvent_ofp (s : State) (k : Nat) (e : Option Event) : (s.setEvent k e).ofp = s.ofp := rfl
@[simp] theorem setEvent_tmb (s : State) (k : Nat) (e : Option Event) : (s.setEvent k e).tmb = s.tmb := rfl
@[simp] theorem setEvent_smn (s : State) (k : Nat) (e : Option Event) : (s.setEvent k e).smn = s.smn := rfl
@[simp] theorem setEvent_mxp (s : State) (k : Nat) (e : Option Event) : (s.setEvent k e).mxp = s.mxp := rfl
@[simp] theorem setEvent_crs (s : State) (k : Nat) (e : Option Event) : (s.setEvent k e).crs = s.crs := rfl
@[simp] theorem setEvent_csc (s : State) (k : Nat) (e : Option Event) : (s.setEvent k e).csc = s.csc := rfl
@[simp] theorem setEvent_urx (s : State) (k : Nat) (e : Option Event) : (s.setEvent k e).urx = s.urx := rfl
@[simp] theorem setEvent_dtb (s : State) (k : Nat) (e : Option Event) : (s.setEvent k e).dtb = s.dtb := rfl
@[simp] theorem setEvent_aen (s : State) (k : Nat) (e : Option Event) : (s.setEvent k e).aen = s.aen := rfl
@[simp] theorem setEvent_rsw (s : State) (k : Nat) (e : Option Event) : (s.setEvent k e).rsw = s.rsw := rfl
@[simp] theorem setEvent_pin (s : State) (k : Nat) (e : Option Event) : (s.setEvent k e).pin = s.pin := rfl
@[simp] theorem setEvent_ppl (s : State) (k : Nat) (e : Option Event) : (s.setEvent k e).ppl = s.ppl := rfl
@[simp] theorem setEvent_olz (s : State) (k : Nat) (e : Option Event) : (s.setEvent k e).olz = s.olz := rfl
@[simp] theorem setEvent_bjn (s : State) (k : Nat) (e : Option Event) : (s.setEvent k e).bjn = s.bjn := rfl
@[simp] theorem setEvent_sst (s : State) (k : Nat) (e : Option Event) : (s.setEvent k e).sst = s.sst := rfl
@[simp] theorem setEvent_params (s : State) (k : Nat) (e : Option Event) : (s.setEvent k e).params = s.params := rfl
@[simp] theorem setEvent_draws (s : State) (k : Nat) (e : Option Event) : (s.setEvent k e).draws = s.draws := rfl
@[simp] theorem setEvent_pending (s : State) (k : Nat) (e : Option Event) : (s.setEvent k e).pending = s.pending := rfl

@[simp] theorem setSource_ofp (s : State) (k : Nat) (r : Source) : (s.setSource k r).ofp = s.ofp := rfl
@[simp] theorem setSource_tmb (s : State) (k : Nat) (r : Source) : (s.setSource k r).tmb = s.tmb := rfl
@[simp] theorem setSource_mxp (s : State) (k : Nat) (r : Source) : (s.setSource k r).mxp = s.mxp := rfl
@[simp] theorem setSource_lur (s : State) (k : Nat) (r : Source) : (s.setSource k r).lur = s.lur := rfl
@[simp] theorem setSource_crs (s : State) (k : Nat) (r : Source) : (s.setSource k r).crs = s.crs := rfl
@[simp] theorem setSource_csc (s : State) (k : Nat) (r : Source) : (s.setSource k r).csc = s.csc := rfl
@[simp] theorem setSource_urx (s : State) (k : Nat) (r : Source) : (s.setSource k r).urx = s.urx := rfl
@[simp] theorem setSource_dtb (s : State) (k : Nat) (r : Source) : (s.setSource k r).dtb = s.dtb := rfl
@[simp] theorem setSource_aen (s : State) (k : Nat) (r : Source) : (s.setSource k r).aen = s.aen := rfl
@[simp] theorem setSource_rsw (s : State) (k : Nat) (r : Source) : (s.setSource k r).rsw = s.rsw := rfl
@[simp] theorem setSource_pin (s : State) (k : Nat) (r : Source) : (s.setSource k r).pin = s.pin := rfl
@[simp] theorem setSource_ppl (s : State) (k : Nat) (r : Source) : (s.setSource k r).ppl = s.ppl := rfl
@[simp] theorem setSource_olz (s : State) (k : Nat) (r : Source) : (s.setSource k r).olz = s.olz := rfl
@[simp] theorem setSource_bjn (s : State) (k : Nat) (r : Source) : (s.setSource k r).bjn = s.bjn := rfl
@[simp] theorem setSource_sst (s : State) (k : Nat) (r : Source) : (s.setSource k r).sst = s.sst := rfl
@[simp] theorem setSource_params (s : State) (k : Nat) (r : Source) : (s.setSource k r).params = s.params := rfl
@[simp] theorem setSource_draws (s : State) (k : Nat) (r : Source) : (s.setSource k r).draws = s.draws := rfl
@[simp] theorem setSource_pending (s : State) (k : Nat) (r : Source) : (s.setSource k r).pending = s.pending := rfl

@[simp] theorem setUnit_ofp (s : State) (u : Nat) (r : PlantUnit) : (s.setUnit u r).ofp = s.ofp := rfl
@[simp] theorem setUnit_tmb (s : State) (u : Nat) (r : PlantUnit) : (s.setUnit u r).tmb = s.tmb := rfl
@[simp] theorem setUnit_smn (s : State) (u : Nat) (r : PlantUnit) : (s.setUnit u r).smn = s.smn := rfl
@[simp] theorem setUnit_mxp (s : State) (u : Nat) (r : PlantUnit) : (s.setUnit u r).mxp = s.mxp := rfl
@[simp] theorem setUnit_lur (s : State) (u : Nat) (r : PlantUnit) : (s.setUnit u r).lur = s.lur := rfl
@[simp] theorem setUnit_crs (s : State) (u : Nat) (r : PlantUnit) : (s.setUnit u r).crs = s.crs := rfl
@[simp] theorem setUnit_csc (s : State) (u : Nat) (r : PlantUnit) : (s.setUnit u r).csc = s.csc := rfl
@[simp] theorem setUnit_urx (s : State) (u : Nat) (r : PlantUnit) : (s.setUnit u r).urx = s.urx := rfl
@[simp] theorem setUnit_dtb (s : State) (u : Nat) (r : PlantUnit) : (s.setUnit u r).dtb = s.dtb := rfl
@[simp] theorem setUnit_aen (s : State) (u : Nat) (r : PlantUnit) : (s.setUnit u r).aen = s.aen := rfl
@[simp] theorem setUnit_rsw (s : State) (u : Nat) (r : PlantUnit) : (s.setUnit u r).rsw = s.rsw := rfl
@[simp] theorem setUnit_pin (s : State) (u : Nat) (r : PlantUnit) : (s.setUnit u r).pin = s.pin := rfl
@[simp] theorem setUnit_olz (s : State) (u : Nat) (r : PlantUnit) : (s.setUnit u r).olz = s.olz := rfl
@[simp] theorem setUnit_bjn (s : State) (u : Nat) (r : PlantUnit) : (s.setUnit u r).bjn = s.bjn := rfl
@[simp] theorem setUnit_sst (s : State) (u : Nat) (r : PlantUnit) : (s.setUnit u r).sst = s.sst := rfl
@[simp] theorem setUnit_params (s : State) (u : Nat) (r : PlantUnit) : (s.setUnit u r).params = s.params := rfl
@[simp] theorem setUnit_draws (s : State) (u : Nat) (r : PlantUnit) : (s.setUnit u r).draws = s.draws := rfl
@[simp] theorem setUnit_pending (s : State) (u : Nat) (r : PlantUnit) : (s.setUnit u r).pending = s.pending := rfl

@[simp] theorem setAttn_tmb (s : State) (k : Kind) (a : Attn) : (s.setAttn k a).tmb = s.tmb := rfl
@[simp] theorem setAttn_smn (s : State) (k : Kind) (a : Attn) : (s.setAttn k a).smn = s.smn := rfl
@[simp] theorem setAttn_mxp (s : State) (k : Kind) (a : Attn) : (s.setAttn k a).mxp = s.mxp := rfl
@[simp] theorem setAttn_lur (s : State) (k : Kind) (a : Attn) : (s.setAttn k a).lur = s.lur := rfl
@[simp] theorem setAttn_crs (s : State) (k : Kind) (a : Attn) : (s.setAttn k a).crs = s.crs := rfl
@[simp] theorem setAttn_csc (s : State) (k : Kind) (a : Attn) : (s.setAttn k a).csc = s.csc := rfl
@[simp] theorem setAttn_urx (s : State) (k : Kind) (a : Attn) : (s.setAttn k a).urx = s.urx := rfl
@[simp] theorem setAttn_dtb (s : State) (k : Kind) (a : Attn) : (s.setAttn k a).dtb = s.dtb := rfl
@[simp] theorem setAttn_aen (s : State) (k : Kind) (a : Attn) : (s.setAttn k a).aen = s.aen := rfl
@[simp] theorem setAttn_rsw (s : State) (k : Kind) (a : Attn) : (s.setAttn k a).rsw = s.rsw := rfl
@[simp] theorem setAttn_pin (s : State) (k : Kind) (a : Attn) : (s.setAttn k a).pin = s.pin := rfl
@[simp] theorem setAttn_ppl (s : State) (k : Kind) (a : Attn) : (s.setAttn k a).ppl = s.ppl := rfl
@[simp] theorem setAttn_olz (s : State) (k : Kind) (a : Attn) : (s.setAttn k a).olz = s.olz := rfl
@[simp] theorem setAttn_bjn (s : State) (k : Kind) (a : Attn) : (s.setAttn k a).bjn = s.bjn := rfl
@[simp] theorem setAttn_sst (s : State) (k : Kind) (a : Attn) : (s.setAttn k a).sst = s.sst := rfl
@[simp] theorem setAttn_params (s : State) (k : Kind) (a : Attn) : (s.setAttn k a).params = s.params := rfl
@[simp] theorem setAttn_draws (s : State) (k : Kind) (a : Attn) : (s.setAttn k a).draws = s.draws := rfl
@[simp] theorem setAttn_pending (s : State) (k : Kind) (a : Attn) : (s.setAttn k a).pending = s.pending := rfl

@[simp] theorem raise_tmb (s : State) (k : Kind) : (raise k s).tmb = s.tmb := rfl
@[simp] theorem raise_smn (s : State) (k : Kind) : (raise k s).smn = s.smn := rfl
@[simp] theorem raise_mxp (s : State) (k : Kind) : (raise k s).mxp = s.mxp := rfl
@[simp] theorem raise_lur (s : State) (k : Kind) : (raise k s).lur = s.lur := rfl
@[simp] theorem raise_crs (s : State) (k : Kind) : (raise k s).crs = s.crs := rfl
@[simp] theorem raise_csc (s : State) (k : Kind) : (raise k s).csc = s.csc := rfl
@[simp] theorem raise_urx (s : State) (k : Kind) : (raise k s).urx = s.urx := rfl
@[simp] theorem raise_dtb (s : State) (k : Kind) : (raise k s).dtb = s.dtb := rfl
@[simp] theorem raise_aen (s : State) (k : Kind) : (raise k s).aen = s.aen := rfl
@[simp] theorem raise_rsw (s : State) (k : Kind) : (raise k s).rsw = s.rsw := rfl
@[simp] theorem raise_pin (s : State) (k : Kind) : (raise k s).pin = s.pin := rfl
@[simp] theorem raise_ppl (s : State) (k : Kind) : (raise k s).ppl = s.ppl := rfl
@[simp] theorem raise_olz (s : State) (k : Kind) : (raise k s).olz = s.olz := rfl
@[simp] theorem raise_bjn (s : State) (k : Kind) : (raise k s).bjn = s.bjn := rfl
@[simp] theorem raise_sst (s : State) (k : Kind) : (raise k s).sst = s.sst := rfl
@[simp] theorem raise_params (s : State) (k : Kind) : (raise k s).params = s.params := rfl
@[simp] theorem raise_draws (s : State) (k : Kind) : (raise k s).draws = s.draws := rfl
@[simp] theorem raise_pending (s : State) (k : Kind) : (raise k s).pending = s.pending := rfl

@[simp] theorem setRunState_ofp (s : State) (r : RunState) : (s.setRunState r).ofp = s.ofp := rfl
@[simp] theorem setRunState_tmb (s : State) (r : RunState) : (s.setRunState r).tmb = s.tmb := rfl
@[simp] theorem setRunState_smn (s : State) (r : RunState) : (s.setRunState r).smn = s.smn := rfl
@[simp] theorem setRunState_mxp (s : State) (r : RunState) : (s.setRunState r).mxp = s.mxp := rfl
@[simp] theorem setRunState_lur (s : State) (r : RunState) : (s.setRunState r).lur = s.lur := rfl
@[simp] theorem setRunState_crs (s : State) (r : RunState) : (s.setRunState r).crs = s.crs := rfl
@[simp] theorem setRunState_csc (s : State) (r : RunState) : (s.setRunState r).csc = s.csc := rfl
@[simp] theorem setRunState_urx (s : State) (r : RunState) : (s.setRunState r).urx = s.urx := rfl
@[simp] theorem setRunState_dtb (s : State) (r : RunState) : (s.setRunState r).dtb = s.dtb := rfl
@[simp] theorem setRunState_aen (s : State) (r : RunState) : (s.setRunState r).aen = s.aen := rfl
@[simp] theorem setRunState_rsw (s : State) (r : RunState) : (s.setRunState r).rsw = s.rsw := rfl
@[simp] theorem setRunState_pin (s : State) (r : RunState) : (s.setRunState r).pin = s.pin := rfl
@[simp] theorem setRunState_ppl (s : State) (r : RunState) : (s.setRunState r).ppl = s.ppl := rfl
@[simp] theorem setRunState_olz (s : State) (r : RunState) : (s.setRunState r).olz = s.olz := rfl
@[simp] theorem setRunState_bjn (s : State) (r : RunState) : (s.setRunState r).bjn = s.bjn := rfl
@[simp] theorem setRunState_params (s : State) (r : RunState) : (s.setRunState r).params = s.params := rfl
@[simp] theorem setRunState_draws (s : State) (r : RunState) : (s.setRunState r).draws = s.draws := rfl
@[simp] theorem setRunState_pending (s : State) (r : RunState) : (s.setRunState r).pending = s.pending := rfl

@[simp] theorem setSst_ofp (s : State) (x : Sst) : (s.setSst x).ofp = s.ofp := rfl
@[simp] theorem setSst_tmb (s : State) (x : Sst) : (s.setSst x).tmb = s.tmb := rfl
@[simp] theorem setSst_smn (s : State) (x : Sst) : (s.setSst x).smn = s.smn := rfl
@[simp] theorem setSst_mxp (s : State) (x : Sst) : (s.setSst x).mxp = s.mxp := rfl
@[simp] theorem setSst_lur (s : State) (x : Sst) : (s.setSst x).lur = s.lur := rfl
@[simp] theorem setSst_crs (s : State) (x : Sst) : (s.setSst x).crs = s.crs := rfl
@[simp] theorem setSst_csc (s : State) (x : Sst) : (s.setSst x).csc = s.csc := rfl
@[simp] theorem setSst_urx (s : State) (x : Sst) : (s.setSst x).urx = s.urx := rfl
@[simp] theorem setSst_dtb (s : State) (x : Sst) : (s.setSst x).dtb = s.dtb := rfl
@[simp] theorem setSst_aen (s : State) (x : Sst) : (s.setSst x).aen = s.aen := rfl
@[simp] theorem setSst_rsw (s : State) (x : Sst) : (s.setSst x).rsw = s.rsw := rfl
@[simp] theorem setSst_pin (s : State) (x : Sst) : (s.setSst x).pin = s.pin := rfl
@[simp] theorem setSst_ppl (s : State) (x : Sst) : (s.setSst x).ppl = s.ppl := rfl
@[simp] theorem setSst_olz (s : State) (x : Sst) : (s.setSst x).olz = s.olz := rfl
@[simp] theorem setSst_bjn (s : State) (x : Sst) : (s.setSst x).bjn = s.bjn := rfl
@[simp] theorem setSst_params (s : State) (x : Sst) : (s.setSst x).params = s.params := rfl
@[simp] theorem setSst_draws (s : State) (x : Sst) : (s.setSst x).draws = s.draws := rfl
@[simp] theorem setSst_pending (s : State) (x : Sst) : (s.setSst x).pending = s.pending := rfl

@[simp] theorem setTmb_ofp (s : State) (x : Tmb) : (s.setTmb x).ofp = s.ofp := rfl
@[simp] theorem setTmb_smn (s : State) (x : Tmb) : (s.setTmb x).smn = s.smn := rfl
@[simp] theorem setTmb_mxp (s : State) (x : Tmb) : (s.setTmb x).mxp = s.mxp := rfl
@[simp] theorem setTmb_lur (s : State) (x : Tmb) : (s.setTmb x).lur = s.lur := rfl
@[simp] theorem setTmb_crs (s : State) (x : Tmb) : (s.setTmb x).crs = s.crs := rfl
@[simp] theorem setTmb_csc (s : State) (x : Tmb) : (s.setTmb x).csc = s.csc := rfl
@[simp] theorem setTmb_urx (s : State) (x : Tmb) : (s.setTmb x).urx = s.urx := rfl
@[simp] theorem setTmb_dtb (s : State) (x : Tmb) : (s.setTmb x).dtb = s.dtb := rfl
@[simp] theorem setTmb_aen (s : State) (x : Tmb) : (s.setTmb x).aen = s.aen := rfl
@[simp] theorem setTmb_rsw (s : State) (x : Tmb) : (s.setTmb x).rsw = s.rsw := rfl
@[simp] theorem setTmb_pin (s : State) (x : Tmb) : (s.setTmb x).pin = s.pin := rfl
@[simp] theorem setTmb_ppl (s : State) (x : Tmb) : (s.setTmb x).ppl = s.ppl := rfl
@[simp] theorem setTmb_olz (s : State) (x : Tmb) : (s.setTmb x).olz = s.olz := rfl
@[simp] theorem setTmb_bjn (s : State) (x : Tmb) : (s.setTmb x).bjn = s.bjn := rfl
@[simp] theorem setTmb_sst (s : State) (x : Tmb) : (s.setTmb x).sst = s.sst := rfl
@[simp] theorem setTmb_params (s : State) (x : Tmb) : (s.setTmb x).params = s.params := rfl
@[simp] theorem setTmb_draws (s : State) (x : Tmb) : (s.setTmb x).draws = s.draws := rfl
@[simp] theorem setTmb_pending (s : State) (x : Tmb) : (s.setTmb x).pending = s.pending := rfl

@[simp] theorem setQueue_ofp (s : State) (q : List QEntry) : (s.setQueue q).ofp = s.ofp := rfl
@[simp] theorem setQueue_tmb (s : State) (q : List QEntry) : (s.setQueue q).tmb = s.tmb := rfl
@[simp] theorem setQueue_smn (s : State) (q : List QEntry) : (s.setQueue q).smn = s.smn := rfl
@[simp] theorem setQueue_mxp (s : State) (q : List QEntry) : (s.setQueue q).mxp = s.mxp := rfl
@[simp] theorem setQueue_lur (s : State) (q : List QEntry) : (s.setQueue q).lur = s.lur := rfl
@[simp] theorem setQueue_crs (s : State) (q : List QEntry) : (s.setQueue q).crs = s.crs := rfl
@[simp] theorem setQueue_csc (s : State) (q : List QEntry) : (s.setQueue q).csc = s.csc := rfl
@[simp] theorem setQueue_urx (s : State) (q : List QEntry) : (s.setQueue q).urx = s.urx := rfl
@[simp] theorem setQueue_dtb (s : State) (q : List QEntry) : (s.setQueue q).dtb = s.dtb := rfl
@[simp] theorem setQueue_rsw (s : State) (q : List QEntry) : (s.setQueue q).rsw = s.rsw := rfl
@[simp] theorem setQueue_pin (s : State) (q : List QEntry) : (s.setQueue q).pin = s.pin := rfl
@[simp] theorem setQueue_ppl (s : State) (q : List QEntry) : (s.setQueue q).ppl = s.ppl := rfl
@[simp] theorem setQueue_olz (s : State) (q : List QEntry) : (s.setQueue q).olz = s.olz := rfl
@[simp] theorem setQueue_bjn (s : State) (q : List QEntry) : (s.setQueue q).bjn = s.bjn := rfl
@[simp] theorem setQueue_sst (s : State) (q : List QEntry) : (s.setQueue q).sst = s.sst := rfl
@[simp] theorem setQueue_params (s : State) (q : List QEntry) : (s.setQueue q).params = s.params := rfl
@[simp] theorem setQueue_draws (s : State) (q : List QEntry) : (s.setQueue q).draws = s.draws := rfl
@[simp] theorem setQueue_pending (s : State) (q : List QEntry) : (s.setQueue q).pending = s.pending := rfl

@[simp] theorem setWaves_ofp (s : State) (w : List Wave) : (s.setWaves w).ofp = s.ofp := rfl
@[simp] theorem setWaves_tmb (s : State) (w : List Wave) : (s.setWaves w).tmb = s.tmb := rfl
@[simp] theorem setWaves_smn (s : State) (w : List Wave) : (s.setWaves w).smn = s.smn := rfl
@[simp] theorem setWaves_mxp (s : State) (w : List Wave) : (s.setWaves w).mxp = s.mxp := rfl
@[simp] theorem setWaves_lur (s : State) (w : List Wave) : (s.setWaves w).lur = s.lur := rfl
@[simp] theorem setWaves_crs (s : State) (w : List Wave) : (s.setWaves w).crs = s.crs := rfl
@[simp] theorem setWaves_csc (s : State) (w : List Wave) : (s.setWaves w).csc = s.csc := rfl
@[simp] theorem setWaves_urx (s : State) (w : List Wave) : (s.setWaves w).urx = s.urx := rfl
@[simp] theorem setWaves_dtb (s : State) (w : List Wave) : (s.setWaves w).dtb = s.dtb := rfl
@[simp] theorem setWaves_rsw (s : State) (w : List Wave) : (s.setWaves w).rsw = s.rsw := rfl
@[simp] theorem setWaves_pin (s : State) (w : List Wave) : (s.setWaves w).pin = s.pin := rfl
@[simp] theorem setWaves_ppl (s : State) (w : List Wave) : (s.setWaves w).ppl = s.ppl := rfl
@[simp] theorem setWaves_olz (s : State) (w : List Wave) : (s.setWaves w).olz = s.olz := rfl
@[simp] theorem setWaves_bjn (s : State) (w : List Wave) : (s.setWaves w).bjn = s.bjn := rfl
@[simp] theorem setWaves_sst (s : State) (w : List Wave) : (s.setWaves w).sst = s.sst := rfl
@[simp] theorem setWaves_params (s : State) (w : List Wave) : (s.setWaves w).params = s.params := rfl
@[simp] theorem setWaves_draws (s : State) (w : List Wave) : (s.setWaves w).draws = s.draws := rfl
@[simp] theorem setWaves_pending (s : State) (w : List Wave) : (s.setWaves w).pending = s.pending := rfl

@[simp] theorem appendWave_ofp (s : State) (c : Criterion) : (appendWave c s).ofp = s.ofp := rfl
@[simp] theorem appendWave_tmb (s : State) (c : Criterion) : (appendWave c s).tmb = s.tmb := rfl
@[simp] theorem appendWave_smn (s : State) (c : Criterion) : (appendWave c s).smn = s.smn := rfl
@[simp] theorem appendWave_mxp (s : State) (c : Criterion) : (appendWave c s).mxp = s.mxp := rfl
@[simp] theorem appendWave_lur (s : State) (c : Criterion) : (appendWave c s).lur = s.lur := rfl
@[simp] theorem appendWave_crs (s : State) (c : Criterion) : (appendWave c s).crs = s.crs := rfl
@[simp] theorem appendWave_csc (s : State) (c : Criterion) : (appendWave c s).csc = s.csc := rfl
@[simp] theorem appendWave_urx (s : State) (c : Criterion) : (appendWave c s).urx = s.urx := rfl
@[simp] theorem appendWave_dtb (s : State) (c : Criterion) : (appendWave c s).dtb = s.dtb := rfl
@[simp] theorem appendWave_rsw (s : State) (c : Criterion) : (appendWave c s).rsw = s.rsw := rfl
@[simp] theorem appendWave_pin (s : State) (c : Criterion) : (appendWave c s).pin = s.pin := rfl
@[simp] theorem appendWave_ppl (s : State) (c : Criterion) : (appendWave c s).ppl = s.ppl := rfl
@[simp] theorem appendWave_olz (s : State) (c : Criterion) : (appendWave c s).olz = s.olz := rfl
@[simp] theorem appendWave_bjn (s : State) (c : Criterion) : (appendWave c s).bjn = s.bjn := rfl
@[simp] theorem appendWave_sst (s : State) (c : Criterion) : (appendWave c s).sst = s.sst := rfl
@[simp] theorem appendWave_params (s : State) (c : Criterion) : (appendWave c s).params = s.params := rfl
@[simp] theorem appendWave_draws (s : State) (c : Criterion) : (appendWave c s).draws = s.draws := rfl
@[simp] theorem appendWave_pending (s : State) (c : Criterion) : (appendWave c s).pending = s.pending := rfl

@[simp] theorem setWaveCursor_ofp (s : State) (n : Nat) (b : Bool) : (s.setWaveCursor n b).ofp = s.ofp := rfl
@[simp] theorem setWaveCursor_tmb (s : State) (n : Nat) (b : Bool) : (s.setWaveCursor n b).tmb = s.tmb := rfl
@[simp] theorem setWaveCursor_smn (s : State) (n : Nat) (b : Bool) : (s.setWaveCursor n b).smn = s.smn := rfl
@[simp] theorem setWaveCursor_mxp (s : State) (n : Nat) (b : Bool) : (s.setWaveCursor n b).mxp = s.mxp := rfl
@[simp] theorem setWaveCursor_lur (s : State) (n : Nat) (b : Bool) : (s.setWaveCursor n b).lur = s.lur := rfl
@[simp] theorem setWaveCursor_crs (s : State) (n : Nat) (b : Bool) : (s.setWaveCursor n b).crs = s.crs := rfl
@[simp] theorem setWaveCursor_csc (s : State) (n : Nat) (b : Bool) : (s.setWaveCursor n b).csc = s.csc := rfl
@[simp] theorem setWaveCursor_urx (s : State) (n : Nat) (b : Bool) : (s.setWaveCursor n b).urx = s.urx := rfl
@[simp] theorem setWaveCursor_dtb (s : State) (n : Nat) (b : Bool) : (s.setWaveCursor n b).dtb = s.dtb := rfl
@[simp] theorem setWaveCursor_rsw (s : State) (n : Nat) (b : Bool) : (s.setWaveCursor n b).rsw = s.rsw := rfl
@[simp] theorem setWaveCursor_pin (s : State) (n : Nat) (b : Bool) : (s.setWaveCursor n b).pin = s.pin := rfl
@[simp] theorem setWaveCursor_ppl (s : State) (n : Nat) (b : Bool) : (s.setWaveCursor n b).ppl = s.ppl := rfl
@[simp] theorem setWaveCursor_olz (s : State) (n : Nat) (b : Bool) : (s.setWaveCursor n b).olz = s.olz := rfl
@[simp] theorem setWaveCursor_bjn (s : State) (n : Nat) (b : Bool) : (s.setWaveCursor n b).bjn = s.bjn := rfl
@[simp] theorem setWaveCursor_sst (s : State) (n : Nat) (b : Bool) : (s.setWaveCursor n b).sst = s.sst := rfl
@[simp] theorem setWaveCursor_params (s : State) (n : Nat) (b : Bool) : (s.setWaveCursor n b).params = s.params := rfl
@[simp] theorem setWaveCursor_draws (s : State) (n : Nat) (b : Bool) : (s.setWaveCursor n b).draws = s.draws := rfl
@[simp] theorem setWaveCursor_pending (s : State) (n : Nat) (b : Bool) : (s.setWaveCursor n b).pending = s.pending := rfl

@[simp] theorem oweWaveVisit_ofp (s : State) : s.oweWaveVisit.ofp = s.ofp := rfl
@[simp] theorem oweWaveVisit_tmb (s : State) : s.oweWaveVisit.tmb = s.tmb := rfl
@[simp] theorem oweWaveVisit_smn (s : State) : s.oweWaveVisit.smn = s.smn := rfl
@[simp] theorem oweWaveVisit_mxp (s : State) : s.oweWaveVisit.mxp = s.mxp := rfl
@[simp] theorem oweWaveVisit_lur (s : State) : s.oweWaveVisit.lur = s.lur := rfl
@[simp] theorem oweWaveVisit_crs (s : State) : s.oweWaveVisit.crs = s.crs := rfl
@[simp] theorem oweWaveVisit_csc (s : State) : s.oweWaveVisit.csc = s.csc := rfl
@[simp] theorem oweWaveVisit_urx (s : State) : s.oweWaveVisit.urx = s.urx := rfl
@[simp] theorem oweWaveVisit_dtb (s : State) : s.oweWaveVisit.dtb = s.dtb := rfl
@[simp] theorem oweWaveVisit_rsw (s : State) : s.oweWaveVisit.rsw = s.rsw := rfl
@[simp] theorem oweWaveVisit_pin (s : State) : s.oweWaveVisit.pin = s.pin := rfl
@[simp] theorem oweWaveVisit_ppl (s : State) : s.oweWaveVisit.ppl = s.ppl := rfl
@[simp] theorem oweWaveVisit_olz (s : State) : s.oweWaveVisit.olz = s.olz := rfl
@[simp] theorem oweWaveVisit_bjn (s : State) : s.oweWaveVisit.bjn = s.bjn := rfl
@[simp] theorem oweWaveVisit_sst (s : State) : s.oweWaveVisit.sst = s.sst := rfl
@[simp] theorem oweWaveVisit_params (s : State) : s.oweWaveVisit.params = s.params := rfl
@[simp] theorem oweWaveVisit_draws (s : State) : s.oweWaveVisit.draws = s.draws := rfl
@[simp] theorem oweWaveVisit_pending (s : State) : s.oweWaveVisit.pending = s.pending := rfl
@[simp] theorem oweWaveVisit_queue (s : State) : s.oweWaveVisit.aen.queue = s.aen.queue := rfl
@[simp] theorem oweWaveVisit_waves (s : State) : s.oweWaveVisit.aen.waves = s.aen.waves := rfl
@[simp] theorem oweWaveVisit_paused (s : State) : s.oweWaveVisit.aen.paused = s.aen.paused := rfl
@[simp] theorem oweWaveVisit_owed (s : State) : s.oweWaveVisit.aen.owed = true := rfl
@[simp] theorem setQueue_owed (s : State) (q : List QEntry) : (s.setQueue q).aen.owed = s.aen.owed := rfl
@[simp] theorem setWaves_owed (s : State) (w : List Wave) : (s.setWaves w).aen.owed = s.aen.owed := rfl
@[simp] theorem setWaveCursor_owed (s : State) (n : Nat) (b : Bool) : (s.setWaveCursor n b).aen.owed = false := rfl

@[simp] theorem setWindows_ofp (s : State) (w : List Window) : (s.setWindows w).ofp = s.ofp := rfl
@[simp] theorem setWindows_tmb (s : State) (w : List Window) : (s.setWindows w).tmb = s.tmb := rfl
@[simp] theorem setWindows_smn (s : State) (w : List Window) : (s.setWindows w).smn = s.smn := rfl
@[simp] theorem setWindows_mxp (s : State) (w : List Window) : (s.setWindows w).mxp = s.mxp := rfl
@[simp] theorem setWindows_lur (s : State) (w : List Window) : (s.setWindows w).lur = s.lur := rfl
@[simp] theorem setWindows_crs (s : State) (w : List Window) : (s.setWindows w).crs = s.crs := rfl
@[simp] theorem setWindows_urx (s : State) (w : List Window) : (s.setWindows w).urx = s.urx := rfl
@[simp] theorem setWindows_dtb (s : State) (w : List Window) : (s.setWindows w).dtb = s.dtb := rfl
@[simp] theorem setWindows_aen (s : State) (w : List Window) : (s.setWindows w).aen = s.aen := rfl
@[simp] theorem setWindows_rsw (s : State) (w : List Window) : (s.setWindows w).rsw = s.rsw := rfl
@[simp] theorem setWindows_pin (s : State) (w : List Window) : (s.setWindows w).pin = s.pin := rfl
@[simp] theorem setWindows_ppl (s : State) (w : List Window) : (s.setWindows w).ppl = s.ppl := rfl
@[simp] theorem setWindows_olz (s : State) (w : List Window) : (s.setWindows w).olz = s.olz := rfl
@[simp] theorem setWindows_bjn (s : State) (w : List Window) : (s.setWindows w).bjn = s.bjn := rfl
@[simp] theorem setWindows_sst (s : State) (w : List Window) : (s.setWindows w).sst = s.sst := rfl
@[simp] theorem setWindows_params (s : State) (w : List Window) : (s.setWindows w).params = s.params := rfl
@[simp] theorem setWindows_draws (s : State) (w : List Window) : (s.setWindows w).draws = s.draws := rfl
@[simp] theorem setWindows_pending (s : State) (w : List Window) : (s.setWindows w).pending = s.pending := rfl

@[simp] theorem setOverride_ofp (s : State) (o : Override) : (s.setOverride o).ofp = s.ofp := rfl
@[simp] theorem setOverride_tmb (s : State) (o : Override) : (s.setOverride o).tmb = s.tmb := rfl
@[simp] theorem setOverride_smn (s : State) (o : Override) : (s.setOverride o).smn = s.smn := rfl
@[simp] theorem setOverride_mxp (s : State) (o : Override) : (s.setOverride o).mxp = s.mxp := rfl
@[simp] theorem setOverride_crs (s : State) (o : Override) : (s.setOverride o).crs = s.crs := rfl
@[simp] theorem setOverride_csc (s : State) (o : Override) : (s.setOverride o).csc = s.csc := rfl
@[simp] theorem setOverride_urx (s : State) (o : Override) : (s.setOverride o).urx = s.urx := rfl
@[simp] theorem setOverride_dtb (s : State) (o : Override) : (s.setOverride o).dtb = s.dtb := rfl
@[simp] theorem setOverride_aen (s : State) (o : Override) : (s.setOverride o).aen = s.aen := rfl
@[simp] theorem setOverride_rsw (s : State) (o : Override) : (s.setOverride o).rsw = s.rsw := rfl
@[simp] theorem setOverride_pin (s : State) (o : Override) : (s.setOverride o).pin = s.pin := rfl
@[simp] theorem setOverride_ppl (s : State) (o : Override) : (s.setOverride o).ppl = s.ppl := rfl
@[simp] theorem setOverride_olz (s : State) (o : Override) : (s.setOverride o).olz = s.olz := rfl
@[simp] theorem setOverride_bjn (s : State) (o : Override) : (s.setOverride o).bjn = s.bjn := rfl
@[simp] theorem setOverride_sst (s : State) (o : Override) : (s.setOverride o).sst = s.sst := rfl
@[simp] theorem setOverride_params (s : State) (o : Override) : (s.setOverride o).params = s.params := rfl
@[simp] theorem setOverride_draws (s : State) (o : Override) : (s.setOverride o).draws = s.draws := rfl
@[simp] theorem setOverride_pending (s : State) (o : Override) : (s.setOverride o).pending = s.pending := rfl

@[simp] theorem setPoll_ofp (s : State) (p : Option Poll) : (s.setPoll p).ofp = s.ofp := rfl
@[simp] theorem setPoll_tmb (s : State) (p : Option Poll) : (s.setPoll p).tmb = s.tmb := rfl
@[simp] theorem setPoll_smn (s : State) (p : Option Poll) : (s.setPoll p).smn = s.smn := rfl
@[simp] theorem setPoll_mxp (s : State) (p : Option Poll) : (s.setPoll p).mxp = s.mxp := rfl
@[simp] theorem setPoll_lur (s : State) (p : Option Poll) : (s.setPoll p).lur = s.lur := rfl
@[simp] theorem setPoll_crs (s : State) (p : Option Poll) : (s.setPoll p).crs = s.crs := rfl
@[simp] theorem setPoll_csc (s : State) (p : Option Poll) : (s.setPoll p).csc = s.csc := rfl
@[simp] theorem setPoll_urx (s : State) (p : Option Poll) : (s.setPoll p).urx = s.urx := rfl
@[simp] theorem setPoll_dtb (s : State) (p : Option Poll) : (s.setPoll p).dtb = s.dtb := rfl
@[simp] theorem setPoll_aen (s : State) (p : Option Poll) : (s.setPoll p).aen = s.aen := rfl
@[simp] theorem setPoll_rsw (s : State) (p : Option Poll) : (s.setPoll p).rsw = s.rsw := rfl
@[simp] theorem setPoll_pin (s : State) (p : Option Poll) : (s.setPoll p).pin = s.pin := rfl
@[simp] theorem setPoll_olz (s : State) (p : Option Poll) : (s.setPoll p).olz = s.olz := rfl
@[simp] theorem setPoll_bjn (s : State) (p : Option Poll) : (s.setPoll p).bjn = s.bjn := rfl
@[simp] theorem setPoll_sst (s : State) (p : Option Poll) : (s.setPoll p).sst = s.sst := rfl
@[simp] theorem setPoll_params (s : State) (p : Option Poll) : (s.setPoll p).params = s.params := rfl
@[simp] theorem setPoll_draws (s : State) (p : Option Poll) : (s.setPoll p).draws = s.draws := rfl
@[simp] theorem setPoll_pending (s : State) (p : Option Poll) : (s.setPoll p).pending = s.pending := rfl

@[simp] theorem setPass_ofp (s : State) (n : Nat) (b : Bool) : (s.setPass n b).ofp = s.ofp := rfl
@[simp] theorem setPass_tmb (s : State) (n : Nat) (b : Bool) : (s.setPass n b).tmb = s.tmb := rfl
@[simp] theorem setPass_smn (s : State) (n : Nat) (b : Bool) : (s.setPass n b).smn = s.smn := rfl
@[simp] theorem setPass_mxp (s : State) (n : Nat) (b : Bool) : (s.setPass n b).mxp = s.mxp := rfl
@[simp] theorem setPass_lur (s : State) (n : Nat) (b : Bool) : (s.setPass n b).lur = s.lur := rfl
@[simp] theorem setPass_crs (s : State) (n : Nat) (b : Bool) : (s.setPass n b).crs = s.crs := rfl
@[simp] theorem setPass_csc (s : State) (n : Nat) (b : Bool) : (s.setPass n b).csc = s.csc := rfl
@[simp] theorem setPass_urx (s : State) (n : Nat) (b : Bool) : (s.setPass n b).urx = s.urx := rfl
@[simp] theorem setPass_dtb (s : State) (n : Nat) (b : Bool) : (s.setPass n b).dtb = s.dtb := rfl
@[simp] theorem setPass_aen (s : State) (n : Nat) (b : Bool) : (s.setPass n b).aen = s.aen := rfl
@[simp] theorem setPass_rsw (s : State) (n : Nat) (b : Bool) : (s.setPass n b).rsw = s.rsw := rfl
@[simp] theorem setPass_pin (s : State) (n : Nat) (b : Bool) : (s.setPass n b).pin = s.pin := rfl
@[simp] theorem setPass_ppl (s : State) (n : Nat) (b : Bool) : (s.setPass n b).ppl = s.ppl := rfl
@[simp] theorem setPass_bjn (s : State) (n : Nat) (b : Bool) : (s.setPass n b).bjn = s.bjn := rfl
@[simp] theorem setPass_sst (s : State) (n : Nat) (b : Bool) : (s.setPass n b).sst = s.sst := rfl
@[simp] theorem setPass_params (s : State) (n : Nat) (b : Bool) : (s.setPass n b).params = s.params := rfl
@[simp] theorem setPass_draws (s : State) (n : Nat) (b : Bool) : (s.setPass n b).draws = s.draws := rfl
@[simp] theorem setPass_pending (s : State) (n : Nat) (b : Bool) : (s.setPass n b).pending = s.pending := rfl

@[simp] theorem mapRecord_ofp (s : State) (n : Nat) (f : Outage → Outage) : (mapRecord n f s).ofp = s.ofp := rfl
@[simp] theorem mapRecord_tmb (s : State) (n : Nat) (f : Outage → Outage) : (mapRecord n f s).tmb = s.tmb := rfl
@[simp] theorem mapRecord_smn (s : State) (n : Nat) (f : Outage → Outage) : (mapRecord n f s).smn = s.smn := rfl
@[simp] theorem mapRecord_mxp (s : State) (n : Nat) (f : Outage → Outage) : (mapRecord n f s).mxp = s.mxp := rfl
@[simp] theorem mapRecord_lur (s : State) (n : Nat) (f : Outage → Outage) : (mapRecord n f s).lur = s.lur := rfl
@[simp] theorem mapRecord_crs (s : State) (n : Nat) (f : Outage → Outage) : (mapRecord n f s).crs = s.crs := rfl
@[simp] theorem mapRecord_csc (s : State) (n : Nat) (f : Outage → Outage) : (mapRecord n f s).csc = s.csc := rfl
@[simp] theorem mapRecord_urx (s : State) (n : Nat) (f : Outage → Outage) : (mapRecord n f s).urx = s.urx := rfl
@[simp] theorem mapRecord_dtb (s : State) (n : Nat) (f : Outage → Outage) : (mapRecord n f s).dtb = s.dtb := rfl
@[simp] theorem mapRecord_aen (s : State) (n : Nat) (f : Outage → Outage) : (mapRecord n f s).aen = s.aen := rfl
@[simp] theorem mapRecord_rsw (s : State) (n : Nat) (f : Outage → Outage) : (mapRecord n f s).rsw = s.rsw := rfl
@[simp] theorem mapRecord_pin (s : State) (n : Nat) (f : Outage → Outage) : (mapRecord n f s).pin = s.pin := rfl
@[simp] theorem mapRecord_ppl (s : State) (n : Nat) (f : Outage → Outage) : (mapRecord n f s).ppl = s.ppl := rfl
@[simp] theorem mapRecord_bjn (s : State) (n : Nat) (f : Outage → Outage) : (mapRecord n f s).bjn = s.bjn := rfl
@[simp] theorem mapRecord_sst (s : State) (n : Nat) (f : Outage → Outage) : (mapRecord n f s).sst = s.sst := rfl
@[simp] theorem mapRecord_params (s : State) (n : Nat) (f : Outage → Outage) : (mapRecord n f s).params = s.params := rfl
@[simp] theorem mapRecord_draws (s : State) (n : Nat) (f : Outage → Outage) : (mapRecord n f s).draws = s.draws := rfl
@[simp] theorem mapRecord_pending (s : State) (n : Nat) (f : Outage → Outage) : (mapRecord n f s).pending = s.pending := rfl

@[simp] theorem appendRecord_ofp (s : State) (b : JBody) : (appendRecord b s).ofp = s.ofp := rfl
@[simp] theorem appendRecord_tmb (s : State) (b : JBody) : (appendRecord b s).tmb = s.tmb := rfl
@[simp] theorem appendRecord_smn (s : State) (b : JBody) : (appendRecord b s).smn = s.smn := rfl
@[simp] theorem appendRecord_mxp (s : State) (b : JBody) : (appendRecord b s).mxp = s.mxp := rfl
@[simp] theorem appendRecord_lur (s : State) (b : JBody) : (appendRecord b s).lur = s.lur := rfl
@[simp] theorem appendRecord_crs (s : State) (b : JBody) : (appendRecord b s).crs = s.crs := rfl
@[simp] theorem appendRecord_csc (s : State) (b : JBody) : (appendRecord b s).csc = s.csc := rfl
@[simp] theorem appendRecord_urx (s : State) (b : JBody) : (appendRecord b s).urx = s.urx := rfl
@[simp] theorem appendRecord_dtb (s : State) (b : JBody) : (appendRecord b s).dtb = s.dtb := rfl
@[simp] theorem appendRecord_aen (s : State) (b : JBody) : (appendRecord b s).aen = s.aen := rfl
@[simp] theorem appendRecord_rsw (s : State) (b : JBody) : (appendRecord b s).rsw = s.rsw := rfl
@[simp] theorem appendRecord_pin (s : State) (b : JBody) : (appendRecord b s).pin = s.pin := rfl
@[simp] theorem appendRecord_ppl (s : State) (b : JBody) : (appendRecord b s).ppl = s.ppl := rfl
@[simp] theorem appendRecord_olz (s : State) (b : JBody) : (appendRecord b s).olz = s.olz := rfl
@[simp] theorem appendRecord_sst (s : State) (b : JBody) : (appendRecord b s).sst = s.sst := rfl
@[simp] theorem appendRecord_params (s : State) (b : JBody) : (appendRecord b s).params = s.params := rfl
@[simp] theorem appendRecord_draws (s : State) (b : JBody) : (appendRecord b s).draws = s.draws := rfl
@[simp] theorem appendRecord_pending (s : State) (b : JBody) : (appendRecord b s).pending = s.pending := rfl

@[simp] theorem setDrainLeft_ofp (s : State) (n : Option Nat) : (s.setDrainLeft n).ofp = s.ofp := rfl
@[simp] theorem setDrainLeft_tmb (s : State) (n : Option Nat) : (s.setDrainLeft n).tmb = s.tmb := rfl
@[simp] theorem setDrainLeft_smn (s : State) (n : Option Nat) : (s.setDrainLeft n).smn = s.smn := rfl
@[simp] theorem setDrainLeft_mxp (s : State) (n : Option Nat) : (s.setDrainLeft n).mxp = s.mxp := rfl
@[simp] theorem setDrainLeft_lur (s : State) (n : Option Nat) : (s.setDrainLeft n).lur = s.lur := rfl
@[simp] theorem setDrainLeft_crs (s : State) (n : Option Nat) : (s.setDrainLeft n).crs = s.crs := rfl
@[simp] theorem setDrainLeft_csc (s : State) (n : Option Nat) : (s.setDrainLeft n).csc = s.csc := rfl
@[simp] theorem setDrainLeft_urx (s : State) (n : Option Nat) : (s.setDrainLeft n).urx = s.urx := rfl
@[simp] theorem setDrainLeft_dtb (s : State) (n : Option Nat) : (s.setDrainLeft n).dtb = s.dtb := rfl
@[simp] theorem setDrainLeft_aen (s : State) (n : Option Nat) : (s.setDrainLeft n).aen = s.aen := rfl
@[simp] theorem setDrainLeft_rsw (s : State) (n : Option Nat) : (s.setDrainLeft n).rsw = s.rsw := rfl
@[simp] theorem setDrainLeft_pin (s : State) (n : Option Nat) : (s.setDrainLeft n).pin = s.pin := rfl
@[simp] theorem setDrainLeft_ppl (s : State) (n : Option Nat) : (s.setDrainLeft n).ppl = s.ppl := rfl
@[simp] theorem setDrainLeft_olz (s : State) (n : Option Nat) : (s.setDrainLeft n).olz = s.olz := rfl
@[simp] theorem setDrainLeft_sst (s : State) (n : Option Nat) : (s.setDrainLeft n).sst = s.sst := rfl
@[simp] theorem setDrainLeft_params (s : State) (n : Option Nat) : (s.setDrainLeft n).params = s.params := rfl
@[simp] theorem setDrainLeft_draws (s : State) (n : Option Nat) : (s.setDrainLeft n).draws = s.draws := rfl
@[simp] theorem setDrainLeft_pending (s : State) (n : Option Nat) : (s.setDrainLeft n).pending = s.pending := rfl

@[simp] theorem setGuard_ofp (s : State) (f : Bool) (b : Nat) : (setGuard f b s).ofp = s.ofp := rfl
@[simp] theorem setGuard_tmb (s : State) (f : Bool) (b : Nat) : (setGuard f b s).tmb = s.tmb := rfl
@[simp] theorem setGuard_smn (s : State) (f : Bool) (b : Nat) : (setGuard f b s).smn = s.smn := rfl
@[simp] theorem setGuard_mxp (s : State) (f : Bool) (b : Nat) : (setGuard f b s).mxp = s.mxp := rfl
@[simp] theorem setGuard_lur (s : State) (f : Bool) (b : Nat) : (setGuard f b s).lur = s.lur := rfl
@[simp] theorem setGuard_crs (s : State) (f : Bool) (b : Nat) : (setGuard f b s).crs = s.crs := rfl
@[simp] theorem setGuard_csc (s : State) (f : Bool) (b : Nat) : (setGuard f b s).csc = s.csc := rfl
@[simp] theorem setGuard_urx (s : State) (f : Bool) (b : Nat) : (setGuard f b s).urx = s.urx := rfl
@[simp] theorem setGuard_aen (s : State) (f : Bool) (b : Nat) : (setGuard f b s).aen = s.aen := rfl
@[simp] theorem setGuard_rsw (s : State) (f : Bool) (b : Nat) : (setGuard f b s).rsw = s.rsw := rfl
@[simp] theorem setGuard_pin (s : State) (f : Bool) (b : Nat) : (setGuard f b s).pin = s.pin := rfl
@[simp] theorem setGuard_ppl (s : State) (f : Bool) (b : Nat) : (setGuard f b s).ppl = s.ppl := rfl
@[simp] theorem setGuard_olz (s : State) (f : Bool) (b : Nat) : (setGuard f b s).olz = s.olz := rfl
@[simp] theorem setGuard_bjn (s : State) (f : Bool) (b : Nat) : (setGuard f b s).bjn = s.bjn := rfl
@[simp] theorem setGuard_sst (s : State) (f : Bool) (b : Nat) : (setGuard f b s).sst = s.sst := rfl
@[simp] theorem setGuard_params (s : State) (f : Bool) (b : Nat) : (setGuard f b s).params = s.params := rfl
@[simp] theorem setGuard_draws (s : State) (f : Bool) (b : Nat) : (setGuard f b s).draws = s.draws := rfl
@[simp] theorem setGuard_pending (s : State) (f : Bool) (b : Nat) : (setGuard f b s).pending = s.pending := rfl

@[simp] theorem putOrder_ofp (s : State) (k x : Nat) : (putOrder k x s).ofp = s.ofp := rfl
@[simp] theorem putOrder_tmb (s : State) (k x : Nat) : (putOrder k x s).tmb = s.tmb := rfl
@[simp] theorem putOrder_smn (s : State) (k x : Nat) : (putOrder k x s).smn = s.smn := rfl
@[simp] theorem putOrder_lur (s : State) (k x : Nat) : (putOrder k x s).lur = s.lur := rfl
@[simp] theorem putOrder_crs (s : State) (k x : Nat) : (putOrder k x s).crs = s.crs := rfl
@[simp] theorem putOrder_csc (s : State) (k x : Nat) : (putOrder k x s).csc = s.csc := rfl
@[simp] theorem putOrder_urx (s : State) (k x : Nat) : (putOrder k x s).urx = s.urx := rfl
@[simp] theorem putOrder_dtb (s : State) (k x : Nat) : (putOrder k x s).dtb = s.dtb := rfl
@[simp] theorem putOrder_aen (s : State) (k x : Nat) : (putOrder k x s).aen = s.aen := rfl
@[simp] theorem putOrder_rsw (s : State) (k x : Nat) : (putOrder k x s).rsw = s.rsw := rfl
@[simp] theorem putOrder_pin (s : State) (k x : Nat) : (putOrder k x s).pin = s.pin := rfl
@[simp] theorem putOrder_ppl (s : State) (k x : Nat) : (putOrder k x s).ppl = s.ppl := rfl
@[simp] theorem putOrder_olz (s : State) (k x : Nat) : (putOrder k x s).olz = s.olz := rfl
@[simp] theorem putOrder_bjn (s : State) (k x : Nat) : (putOrder k x s).bjn = s.bjn := rfl
@[simp] theorem putOrder_sst (s : State) (k x : Nat) : (putOrder k x s).sst = s.sst := rfl
@[simp] theorem putOrder_params (s : State) (k x : Nat) : (putOrder k x s).params = s.params := rfl
@[simp] theorem putOrder_draws (s : State) (k x : Nat) : (putOrder k x s).draws = s.draws := rfl
@[simp] theorem putOrder_pending (s : State) (k x : Nat) : (putOrder k x s).pending = s.pending := rfl

@[simp] theorem rebuildMap_ofp (s : State) (p : Nat) : (rebuildMap p s).ofp = s.ofp := rfl
@[simp] theorem rebuildMap_tmb (s : State) (p : Nat) : (rebuildMap p s).tmb = s.tmb := rfl
@[simp] theorem rebuildMap_smn (s : State) (p : Nat) : (rebuildMap p s).smn = s.smn := rfl
@[simp] theorem rebuildMap_mxp (s : State) (p : Nat) : (rebuildMap p s).mxp = s.mxp := rfl
@[simp] theorem rebuildMap_lur (s : State) (p : Nat) : (rebuildMap p s).lur = s.lur := rfl
@[simp] theorem rebuildMap_csc (s : State) (p : Nat) : (rebuildMap p s).csc = s.csc := rfl
@[simp] theorem rebuildMap_urx (s : State) (p : Nat) : (rebuildMap p s).urx = s.urx := rfl
@[simp] theorem rebuildMap_dtb (s : State) (p : Nat) : (rebuildMap p s).dtb = s.dtb := rfl
@[simp] theorem rebuildMap_aen (s : State) (p : Nat) : (rebuildMap p s).aen = s.aen := rfl
@[simp] theorem rebuildMap_rsw (s : State) (p : Nat) : (rebuildMap p s).rsw = s.rsw := rfl
@[simp] theorem rebuildMap_pin (s : State) (p : Nat) : (rebuildMap p s).pin = s.pin := rfl
@[simp] theorem rebuildMap_ppl (s : State) (p : Nat) : (rebuildMap p s).ppl = s.ppl := rfl
@[simp] theorem rebuildMap_olz (s : State) (p : Nat) : (rebuildMap p s).olz = s.olz := rfl
@[simp] theorem rebuildMap_bjn (s : State) (p : Nat) : (rebuildMap p s).bjn = s.bjn := rfl
@[simp] theorem rebuildMap_sst (s : State) (p : Nat) : (rebuildMap p s).sst = s.sst := rfl
@[simp] theorem rebuildMap_params (s : State) (p : Nat) : (rebuildMap p s).params = s.params := rfl
@[simp] theorem rebuildMap_draws (s : State) (p : Nat) : (rebuildMap p s).draws = s.draws := rfl
@[simp] theorem rebuildMap_pending (s : State) (p : Nat) : (rebuildMap p s).pending = s.pending := rfl

@[simp] theorem rebuildEvents_ofp (s : State) (p : Nat) : (rebuildEvents p s).ofp = s.ofp := rfl
@[simp] theorem rebuildEvents_tmb (s : State) (p : Nat) : (rebuildEvents p s).tmb = s.tmb := rfl
@[simp] theorem rebuildEvents_smn (s : State) (p : Nat) : (rebuildEvents p s).smn = s.smn := rfl
@[simp] theorem rebuildEvents_mxp (s : State) (p : Nat) : (rebuildEvents p s).mxp = s.mxp := rfl
@[simp] theorem rebuildEvents_lur (s : State) (p : Nat) : (rebuildEvents p s).lur = s.lur := rfl
@[simp] theorem rebuildEvents_csc (s : State) (p : Nat) : (rebuildEvents p s).csc = s.csc := rfl
@[simp] theorem rebuildEvents_urx (s : State) (p : Nat) : (rebuildEvents p s).urx = s.urx := rfl
@[simp] theorem rebuildEvents_dtb (s : State) (p : Nat) : (rebuildEvents p s).dtb = s.dtb := rfl
@[simp] theorem rebuildEvents_aen (s : State) (p : Nat) : (rebuildEvents p s).aen = s.aen := rfl
@[simp] theorem rebuildEvents_rsw (s : State) (p : Nat) : (rebuildEvents p s).rsw = s.rsw := rfl
@[simp] theorem rebuildEvents_pin (s : State) (p : Nat) : (rebuildEvents p s).pin = s.pin := rfl
@[simp] theorem rebuildEvents_ppl (s : State) (p : Nat) : (rebuildEvents p s).ppl = s.ppl := rfl
@[simp] theorem rebuildEvents_olz (s : State) (p : Nat) : (rebuildEvents p s).olz = s.olz := rfl
@[simp] theorem rebuildEvents_bjn (s : State) (p : Nat) : (rebuildEvents p s).bjn = s.bjn := rfl
@[simp] theorem rebuildEvents_sst (s : State) (p : Nat) : (rebuildEvents p s).sst = s.sst := rfl
@[simp] theorem rebuildEvents_params (s : State) (p : Nat) : (rebuildEvents p s).params = s.params := rfl
@[simp] theorem rebuildEvents_draws (s : State) (p : Nat) : (rebuildEvents p s).draws = s.draws := rfl
@[simp] theorem rebuildEvents_pending (s : State) (p : Nat) : (rebuildEvents p s).pending = s.pending := rfl

@[simp] theorem setCarousel_ofp (s : State) (m : CarouselMode) : (s.setCarousel m).ofp = s.ofp := rfl
@[simp] theorem setCarousel_tmb (s : State) (m : CarouselMode) : (s.setCarousel m).tmb = s.tmb := rfl
@[simp] theorem setCarousel_smn (s : State) (m : CarouselMode) : (s.setCarousel m).smn = s.smn := rfl
@[simp] theorem setCarousel_mxp (s : State) (m : CarouselMode) : (s.setCarousel m).mxp = s.mxp := rfl
@[simp] theorem setCarousel_lur (s : State) (m : CarouselMode) : (s.setCarousel m).lur = s.lur := rfl
@[simp] theorem setCarousel_csc (s : State) (m : CarouselMode) : (s.setCarousel m).csc = s.csc := rfl
@[simp] theorem setCarousel_urx (s : State) (m : CarouselMode) : (s.setCarousel m).urx = s.urx := rfl
@[simp] theorem setCarousel_dtb (s : State) (m : CarouselMode) : (s.setCarousel m).dtb = s.dtb := rfl
@[simp] theorem setCarousel_aen (s : State) (m : CarouselMode) : (s.setCarousel m).aen = s.aen := rfl
@[simp] theorem setCarousel_rsw (s : State) (m : CarouselMode) : (s.setCarousel m).rsw = s.rsw := rfl
@[simp] theorem setCarousel_pin (s : State) (m : CarouselMode) : (s.setCarousel m).pin = s.pin := rfl
@[simp] theorem setCarousel_ppl (s : State) (m : CarouselMode) : (s.setCarousel m).ppl = s.ppl := rfl
@[simp] theorem setCarousel_olz (s : State) (m : CarouselMode) : (s.setCarousel m).olz = s.olz := rfl
@[simp] theorem setCarousel_bjn (s : State) (m : CarouselMode) : (s.setCarousel m).bjn = s.bjn := rfl
@[simp] theorem setCarousel_sst (s : State) (m : CarouselMode) : (s.setCarousel m).sst = s.sst := rfl
@[simp] theorem setCarousel_params (s : State) (m : CarouselMode) : (s.setCarousel m).params = s.params := rfl
@[simp] theorem setCarousel_draws (s : State) (m : CarouselMode) : (s.setCarousel m).draws = s.draws := rfl
@[simp] theorem setCarousel_pending (s : State) (m : CarouselMode) : (s.setCarousel m).pending = s.pending := rfl

@[simp] theorem emit_tmb (s : State) (o : OutLine) : (emit o s).tmb = s.tmb := rfl
@[simp] theorem emit_smn (s : State) (o : OutLine) : (emit o s).smn = s.smn := rfl
@[simp] theorem emit_mxp (s : State) (o : OutLine) : (emit o s).mxp = s.mxp := rfl
@[simp] theorem emit_lur (s : State) (o : OutLine) : (emit o s).lur = s.lur := rfl
@[simp] theorem emit_crs (s : State) (o : OutLine) : (emit o s).crs = s.crs := rfl
@[simp] theorem emit_csc (s : State) (o : OutLine) : (emit o s).csc = s.csc := rfl
@[simp] theorem emit_urx (s : State) (o : OutLine) : (emit o s).urx = s.urx := rfl
@[simp] theorem emit_dtb (s : State) (o : OutLine) : (emit o s).dtb = s.dtb := rfl
@[simp] theorem emit_aen (s : State) (o : OutLine) : (emit o s).aen = s.aen := rfl
@[simp] theorem emit_rsw (s : State) (o : OutLine) : (emit o s).rsw = s.rsw := rfl
@[simp] theorem emit_pin (s : State) (o : OutLine) : (emit o s).pin = s.pin := rfl
@[simp] theorem emit_ppl (s : State) (o : OutLine) : (emit o s).ppl = s.ppl := rfl
@[simp] theorem emit_olz (s : State) (o : OutLine) : (emit o s).olz = s.olz := rfl
@[simp] theorem emit_bjn (s : State) (o : OutLine) : (emit o s).bjn = s.bjn := rfl
@[simp] theorem emit_sst (s : State) (o : OutLine) : (emit o s).sst = s.sst := rfl
@[simp] theorem emit_params (s : State) (o : OutLine) : (emit o s).params = s.params := rfl
@[simp] theorem emit_draws (s : State) (o : OutLine) : (emit o s).draws = s.draws := rfl
@[simp] theorem emit_pending (s : State) (o : OutLine) : (emit o s).pending = s.pending := rfl

@[simp] theorem popLine_tmb (s : State) (l : Lane) : (popLine l s).tmb = s.tmb := rfl
@[simp] theorem popLine_smn (s : State) (l : Lane) : (popLine l s).smn = s.smn := rfl
@[simp] theorem popLine_mxp (s : State) (l : Lane) : (popLine l s).mxp = s.mxp := rfl
@[simp] theorem popLine_lur (s : State) (l : Lane) : (popLine l s).lur = s.lur := rfl
@[simp] theorem popLine_crs (s : State) (l : Lane) : (popLine l s).crs = s.crs := rfl
@[simp] theorem popLine_csc (s : State) (l : Lane) : (popLine l s).csc = s.csc := rfl
@[simp] theorem popLine_urx (s : State) (l : Lane) : (popLine l s).urx = s.urx := rfl
@[simp] theorem popLine_dtb (s : State) (l : Lane) : (popLine l s).dtb = s.dtb := rfl
@[simp] theorem popLine_aen (s : State) (l : Lane) : (popLine l s).aen = s.aen := rfl
@[simp] theorem popLine_rsw (s : State) (l : Lane) : (popLine l s).rsw = s.rsw := rfl
@[simp] theorem popLine_pin (s : State) (l : Lane) : (popLine l s).pin = s.pin := rfl
@[simp] theorem popLine_ppl (s : State) (l : Lane) : (popLine l s).ppl = s.ppl := rfl
@[simp] theorem popLine_olz (s : State) (l : Lane) : (popLine l s).olz = s.olz := rfl
@[simp] theorem popLine_bjn (s : State) (l : Lane) : (popLine l s).bjn = s.bjn := rfl
@[simp] theorem popLine_sst (s : State) (l : Lane) : (popLine l s).sst = s.sst := rfl
@[simp] theorem popLine_params (s : State) (l : Lane) : (popLine l s).params = s.params := rfl
@[simp] theorem popLine_draws (s : State) (l : Lane) : (popLine l s).draws = s.draws := rfl
@[simp] theorem popLine_pending (s : State) (l : Lane) : (popLine l s).pending = s.pending := rfl

@[simp] theorem report_ofp (s : State) : (s.report).ofp = s.ofp := rfl
@[simp] theorem report_tmb (s : State) : (s.report).tmb = s.tmb := rfl
@[simp] theorem report_smn (s : State) : (s.report).smn = s.smn := rfl
@[simp] theorem report_mxp (s : State) : (s.report).mxp = s.mxp := rfl
@[simp] theorem report_lur (s : State) : (s.report).lur = s.lur := rfl
@[simp] theorem report_crs (s : State) : (s.report).crs = s.crs := rfl
@[simp] theorem report_urx (s : State) : (s.report).urx = s.urx := rfl
@[simp] theorem report_dtb (s : State) : (s.report).dtb = s.dtb := rfl
@[simp] theorem report_aen (s : State) : (s.report).aen = s.aen := rfl
@[simp] theorem report_rsw (s : State) : (s.report).rsw = s.rsw := rfl
@[simp] theorem report_pin (s : State) : (s.report).pin = s.pin := rfl
@[simp] theorem report_ppl (s : State) : (s.report).ppl = s.ppl := rfl
@[simp] theorem report_olz (s : State) : (s.report).olz = s.olz := rfl
@[simp] theorem report_bjn (s : State) : (s.report).bjn = s.bjn := rfl
@[simp] theorem report_sst (s : State) : (s.report).sst = s.sst := rfl
@[simp] theorem report_params (s : State) : (s.report).params = s.params := rfl
@[simp] theorem report_draws (s : State) : (s.report).draws = s.draws := rfl
@[simp] theorem report_pending (s : State) : (s.report).pending = s.pending := rfl

/-! ## Reads after writes -/

@[simp] theorem drop_setDrop (s : State) (d e : Nat) (r : Drop) : (s.setDrop d r).drop e = if e = d then r else s.drop e :=
  get_set _ _ _ _ _

@[simp] theorem slot_setSlot (s : State) (k j : Nat) (r : Slot) : (s.setSlot k r).slot j = if j = k then r else s.slot j :=
  get_set _ _ _ _ _

@[simp] theorem event_setEvent (s : State) (k j : Nat) (e : Option Event) :
    (s.setEvent k e).event j = if j = k then e else s.event j := get_set _ _ _ _ _

@[simp] theorem source_setSource (s : State) (k j : Nat) (r : Source) :
    (s.setSource k r).source j = if j = k then r else s.source j := get_set _ _ _ _ _

@[simp] theorem unit_setUnit (s : State) (u v : Nat) (r : PlantUnit) :
    (s.setUnit u r).unit v = if v = u then r else s.unit v := get_set _ _ _ _ _

@[simp] theorem guarded_setGuard (s : State) (f : Bool) (b c : Nat) :
    (setGuard f b s).guarded c = if c = b then f else s.guarded c := get_set _ _ _ _ _

theorem Kind.index_inj {j k : Kind} (h : j.index = k.index) : j = k := by cases j <;> cases k <;> first | rfl | cases h

@[simp] theorem attn_setAttn (s : State) (k j : Kind) (a : Attn) :
    (s.setAttn k a).attn j = if j = k then a else s.attn j := by
  have h := get_set (fun _ => Attn.initial) s.ofp.attn j.index k.index a
  by_cases hj : j = k
  · subst hj
    simpa [State.attn, State.setAttn] using h
  · have : j.index ≠ k.index := fun hi => hj (Kind.index_inj hi)
    simpa [State.attn, State.setAttn, hj, this] using h

@[simp] theorem attn_raise (s : State) (k j : Kind) :
    (raise k s).attn j = if j = k then (s.attn k).raised else s.attn j := attn_setAttn s k j _

@[simp] theorem emit_inbox (s : State) (o : OutLine) (l : Lane) : (emit o s).ofp.inbox l = s.ofp.inbox l := by
  cases l <;> rfl

@[simp] theorem emit_outQ (s : State) (o : OutLine) : (emit o s).ofp.outQ = s.ofp.outQ ++ [o] := rfl

@[simp] theorem emit_attn (s : State) (o : OutLine) : (emit o s).ofp.attn = s.ofp.attn := rfl

@[simp] theorem popLine_outQ (s : State) (l : Lane) : (popLine l s).ofp.outQ = s.ofp.outQ := by cases l <;> rfl

@[simp] theorem popLine_attn (s : State) (l : Lane) : (popLine l s).ofp.attn = s.ofp.attn := by cases l <;> rfl

@[simp] theorem popLine_inbox (s : State) (l k : Lane) :
    (popLine l s).ofp.inbox k = if k = l then (s.ofp.inbox k).tail else s.ofp.inbox k := by
  cases l <;> cases k <;> rfl

@[simp] theorem raise_outQ (s : State) (k : Kind) : (raise k s).ofp.outQ = s.ofp.outQ := rfl

@[simp] theorem raise_inbox (s : State) (k : Kind) (l : Lane) : (raise k s).ofp.inbox l = s.ofp.inbox l := by
  cases l <;> rfl

@[simp] theorem report_marks (s : State) : s.report.csc.marks = s.owedMarks := rfl

@[simp] theorem report_windows (s : State) : s.report.csc.windows = s.csc.windows := rfl

@[simp] theorem owedMarks_report (s : State) : s.report.owedMarks = s.owedMarks := rfl

end Sys2Proof.Laws
end

