-- ==== Sys2Proof/Laws/Frame.lean ====
section
/-! SUPPORT. What each shared operation leaves alone, part by part (`OnlyChanges`), and how such facts compose. -/

namespace Sys2Proof.Machine

/-! ## Composing -/

theorem Agree.refl (p : Part) (s : State) : Agree p s s := by
  cases p <;> rfl

theorem Agree.trans {p : Part} {s t u : State} (h : Agree p s t) (g : Agree p t u) : Agree p s u := by
  cases p <;> simp only [Agree] at h g ⊢ <;>
    first
    | exact g.trans h
    | (rw [← h, ← g])

theorem OnlyChanges.refl (ps : List Part) (s : State) : OnlyChanges ps s s := fun p _ => Agree.refl p s

theorem OnlyChanges.trans {ps : List Part} {s t u : State} (h : OnlyChanges ps s t) (g : OnlyChanges ps t u) :
    OnlyChanges ps s u := fun p hp => (h p hp).trans (g p hp)

theorem OnlyChanges.mono {ps qs : List Part} {s t : State} (h : OnlyChanges ps s t) (hq : ps ⊆ qs) :
    OnlyChanges qs s t := fun p hp => h p fun hm => hp (hq hm)

theorem OnlyChanges.foldl {α : Type} {ps : List Part} (f : State → α → State)
    (hf : ∀ s a, OnlyChanges ps s (f s a)) (l : List α) (s : State) : OnlyChanges ps s (l.foldl f s) := by
  induction l generalizing s with
  | nil => exact OnlyChanges.refl ps s
  | cons a l ih => exact (hf s a).trans (ih (f s a))

theorem OnlyChanges.ite {ps : List Part} {c : Prop} [Decidable c] {s t u : State} (h : OnlyChanges ps s t)
    (g : OnlyChanges ps s u) : OnlyChanges ps s (if c then t else u) := by
  split
  · exact h
  · exact g

end Sys2Proof.Machine

namespace Sys2Proof.Laws

open Sys2Proof.Machine

/-! ## The updates -/

theorem setAttn_only (k : Kind) (a : Attn) (s : State) : OnlyChanges [.attn] s (s.setAttn k a) := by
  intro p hp
  cases p <;> first | rfl | simp at hp

theorem setDrop_only (d : Nat) (r : Drop) (s : State) : OnlyChanges [.dtb] s (s.setDrop d r) := by
  intro p hp
  cases p <;> first | rfl | simp at hp

theorem setSlot_only (k : Nat) (r : Slot) (s : State) : OnlyChanges [.lur] s (s.setSlot k r) := by
  intro p hp
  cases p <;> first | rfl | simp at hp

theorem setEvent_only (k : Nat) (e : Option Event) (s : State) : OnlyChanges [.lur] s (s.setEvent k e) := by
  intro p hp
  cases p <;> first | rfl | simp at hp

theorem setOverride_only (o : Override) (s : State) : OnlyChanges [.lur] s (s.setOverride o) := by
  intro p hp
  cases p <;> first | rfl | simp at hp

theorem setSource_only (k : Nat) (r : Source) (s : State) : OnlyChanges [.smn] s (s.setSource k r) := by
  intro p hp
  cases p <;> first | rfl | simp at hp

theorem setUnit_only (u : Nat) (r : PlantUnit) (s : State) : OnlyChanges [.ppl] s (s.setUnit u r) := by
  intro p hp
  cases p <;> first | rfl | simp at hp

theorem setPoll_only (p : Option Poll) (s : State) : OnlyChanges [.ppl] s (s.setPoll p) := by
  intro p hp
  cases p <;> first | rfl | simp at hp

theorem setRunState_only (r : RunState) (s : State) : OnlyChanges [.sst] s (s.setRunState r) := by
  intro p hp
  cases p <;> first | rfl | simp at hp

theorem setSst_only (x : Sst) (s : State) : OnlyChanges [.sst] s (s.setSst x) := by
  intro p hp
  cases p <;> first | rfl | simp at hp

theorem setTmb_only (t : Tmb) (s : State) : OnlyChanges [.tmb] s (s.setTmb t) := by
  intro p hp
  cases p <;> first | rfl | simp at hp

theorem setQueue_only (q : List QEntry) (s : State) : OnlyChanges [.queue] s (s.setQueue q) := by
  intro p hp
  cases p <;> first | rfl | simp at hp

theorem setWaves_only (w : List Wave) (s : State) : OnlyChanges [.waves] s (s.setWaves w) := by
  intro p hp
  cases p <;> first | rfl | simp at hp

theorem oweWaveVisit_only (s : State) : OnlyChanges [.waves] s s.oweWaveVisit := by
  intro p hp
  cases p <;> first | rfl | simp at hp

theorem setPass_only (c : Nat) (b : Bool) (s : State) : OnlyChanges [.olz] s (s.setPass c b) := by
  intro p hp
  cases p <;> first | rfl | simp at hp

theorem setWindows_only (w : List Window) (s : State) : OnlyChanges [.csc] s (s.setWindows w) := by
  intro p hp
  cases p <;> first | rfl | simp at hp

theorem setDrainLeft_only (n : Option Nat) (s : State) : OnlyChanges [.bjn] s (s.setDrainLeft n) := by
  intro p hp
  cases p <;> first | rfl | simp at hp

theorem setCarousel_only (m : CarouselMode) (s : State) : OnlyChanges [.crs] s (s.setCarousel m) := by
  intro p hp
  cases p <;> first | rfl | simp at hp

theorem appendRecord_only (b : JBody) (s : State) : OnlyChanges [.bjn] s (appendRecord b s) := by
  intro p hp
  cases p <;> first | rfl | simp at hp

theorem mapRecord_only (n : Nat) (f : Outage → Outage) (s : State) : OnlyChanges [.olz] s (mapRecord n f s) := by
  intro p hp
  cases p <;> first | rfl | simp at hp

theorem appendWave_only (c : Criterion) (s : State) : OnlyChanges [.waves] s (appendWave c s) := by
  intro p hp
  cases p <;> first | rfl | simp at hp

theorem setWaveCursor_only (n : Nat) (b : Bool) (s : State) : OnlyChanges [.waves] s (s.setWaveCursor n b) := by
  intro p hp
  cases p <;> first | rfl | simp at hp

theorem putOrder_only (k x : Nat) (s : State) : OnlyChanges [.mxp] s (putOrder k x s) := by
  intro p hp
  cases p <;> first | rfl | simp at hp

theorem report_only (s : State) : OnlyChanges [.marks] s (s.report) := by
  intro p hp
  cases p <;> first | rfl | simp at hp

theorem emit_only (o : OutLine) (s : State) : OnlyChanges [.office] s (emit o s) := by
  intro p hp
  cases p <;> first | rfl | simp at hp

theorem rebuildMap_only (p : Nat) (s : State) : OnlyChanges [.crs] s (rebuildMap p s) := by
  intro p hp
  cases p <;> first | rfl | simp at hp

theorem rebuildEvents_only (p : Nat) (s : State) : OnlyChanges [.crs] s (rebuildEvents p s) := by
  intro p hp
  cases p <;> first | rfl | simp at hp

theorem setGuard_only (on : Bool) (b : Nat) (s : State) : OnlyChanges [.dtb] s (setGuard on b s) := by
  intro p hp
  cases p <;> first | rfl | simp at hp

theorem giveDeferred_only (r : Reply) (s : State) : OnlyChanges [.office] s (giveDeferred r s) := by
  intro p hp
  cases p <;> first | rfl | simp at hp

theorem popLine_only (l : Lane) (s : State) : OnlyChanges [.office] s (popLine l s) := by
  intro p hp
  cases l <;> cases p <;> first | rfl | simp at hp

/-! ## Attention, journal, drops -/

theorem raise_only (k : Kind) (s : State) : OnlyChanges [.attn] s (raise k s) := setAttn_only k _ s

theorem raiseIf_only (b : Bool) (k : Kind) (s : State) : OnlyChanges [.attn] s (raiseIf b k s) :=
  (raise_only k s).ite (OnlyChanges.refl _ s)

theorem mapAttn_only (f : Attn → Attn) (ks : List Kind) (s : State) : OnlyChanges [.attn] s (s.mapAttn f ks) :=
  OnlyChanges.foldl _ (fun s k => setAttn_only k _ s) ks s

theorem writeRecord_only (b : JBody) (s : State) : OnlyChanges [.bjn, .attn] s (writeRecord b s) :=
  (((appendRecord_only b s).mono (by simp)).trans ((raiseIf_only _ _ _).mono (by simp))).trans
    ((raiseIf_only _ _ _).mono (by simp))

theorem handCredit_only (d m : Nat) (n : Option Nat) (a b : Word) (s : State) :
    OnlyChanges [.bjn, .dtb, .attn] s (handCredit d m n a b s) := by
  unfold handCredit
  exact ((writeRecord_only _ s).mono (by simp)).ite
    (((setDrop_only _ _ s).mono (by simp)).trans ((raise_only _ _).mono (by simp)))

theorem endEpisode_only (d : Nat) (s : State) : OnlyChanges [.bjn, .dtb, .attn] s (endEpisode d s) := by
  unfold endEpisode
  dsimp only
  split
  · exact OnlyChanges.refl _ s
  · exact OnlyChanges.ite ((setDrop_only _ _ s).mono (by simp))
      (((setDrop_only _ _ s).mono (by simp)).trans (handCredit_only _ _ _ _ _ _))

theorem leaveCount_only (n : Nat) (s : State) : OnlyChanges [.olz] s (leaveCount n s) := mapRecord_only _ _ s

theorem enterCount_only (n : Nat) (s : State) : OnlyChanges [.olz] s (enterCount n s) := mapRecord_only _ _ s

theorem queueRequest_only (c : QClass) (u : Bool) (d : Nat) (s : State) :
    OnlyChanges [.queue, .dtb] s (queueRequest c u d s).1 := by
  unfold queueRequest
  dsimp only
  split
  · exact OnlyChanges.refl _ s
  · exact OnlyChanges.ite ((setQueue_only _ s).mono (by simp)) (OnlyChanges.refl _ s)
  · exact (setDrop_only _ _ s).mono (by simp)
  · exact OnlyChanges.refl _ s
  · split
    · exact (setDrop_only _ _ s).mono (by simp)
    · split
      · exact ((setQueue_only _ s).mono (by simp)).trans ((setDrop_only _ _ _).mono (by simp))
      · exact OnlyChanges.refl _ s

theorem request_only (c : QClass) (u : Bool) (d : Nat) (s : State) : OnlyChanges [.queue, .dtb] s (request c u d s) :=
  queueRequest_only c u d s

theorem parkedRequest_only (c : QClass) (d : Nat) (s : State) :
    OnlyChanges [.queue, .dtb] s (parkedRequest c d s).1 := by
  unfold parkedRequest
  split
  · exact ((setQueue_only _ s).mono (by simp)).trans ((setDrop_only _ _ _).mono (by simp))
  · exact OnlyChanges.refl _ s

theorem vacate_only (d : Nat) (s : State) : OnlyChanges [.queue, .dtb, .olz] s (vacate d s) := by
  unfold vacate
  dsimp only
  have h : OnlyChanges [.queue, .dtb, .olz] s
      ((if (s.drop d).link = some .queued then s.setQueue (removeEntry d s.aen.queue) else s).setDrop d
        (s.drop d).vacated) :=
    (((setQueue_only _ s).mono (by simp)).ite (OnlyChanges.refl _ s)).trans ((setDrop_only _ _ _).mono (by simp))
  split
  · exact h
  · exact h.trans ((leaveCount_only _ _).mono (by simp))

/-! ## The line-up -/

theorem markEnded_only (s : State) : OnlyChanges [.lur] s (markEnded s) :=
  OnlyChanges.foldl _ (fun s _ => setEvent_only _ _ s) _ s

theorem startHead_only (s : State) : OnlyChanges [.lur, .waves] s (startHead s) := by
  unfold startHead
  split
  · exact OnlyChanges.refl _ s
  · exact OnlyChanges.ite (OnlyChanges.refl _ s)
      (OnlyChanges.ite (((setWaves_only _ s).mono (by simp)).trans ((markEnded_only _).mono (by simp)))
        ((setWaves_only _ s).mono (by simp)))

theorem storeResolution_only (k : Nat) (s : State) : OnlyChanges [.lur] s (storeResolution k s) := setSlot_only k _ s

theorem resolveSlot_only (k : Nat) (s : State) : OnlyChanges [.lur, .mxp, .crs] s (resolveSlot k s) := by
  unfold resolveSlot
  dsimp only
  have h := (storeResolution_only k s).mono (qs := [.lur, .mxp, .crs]) (by simp)
  have g := OnlyChanges.ite (c := ((s.slot k).cfg.enabled && (resolution s k).1 != (s.slot k).resolved) = true)
    (h.trans ((putOrder_only k (resolution s k).1 _).mono (by simp))) h
  exact OnlyChanges.ite (g.trans ((rebuildMap_only _ _).mono (by simp))) g

theorem resolveSlots_only (ks : List Nat) (s : State) : OnlyChanges [.lur, .mxp, .crs] s (resolveSlots ks s) :=
  OnlyChanges.foldl _ (fun s k => resolveSlot_only k s) ks s

theorem setLatch_only (b : Bool) (k : Nat) (s : State) : OnlyChanges [.lur] s (setLatch b k s) := setSlot_only k _ s

theorem rebuildAll_only (s : State) : OnlyChanges [.crs] s (rebuildAll s) :=
  (OnlyChanges.foldl _ (fun s p => rebuildMap_only p s) _ s).trans
    (OnlyChanges.foldl _ (fun s p => rebuildEvents_only p s) _ _)

theorem eventChanged_only (k : Nat) (e : Event) (n : EventState) (s : State) :
    OnlyChanges [.lur, .mxp, .crs, .attn, .waves] s (eventChanged k e n s) := by
  unfold eventChanged
  dsimp only
  have h1 := (raise_only .event s).mono (qs := [.lur, .mxp, .crs, .attn, .waves]) (by simp)
  have h2 := OnlyChanges.ite (c := e.state = .showing ∨ n = .showing)
    (h1.trans ((resolveSlot_only e.cfg.slot _).mono (by simp))) h1
  have h3 := h2.trans ((rebuildEvents_only (eventPageOf k) _).mono (by simp))
  exact OnlyChanges.ite (h3.trans ((appendWave_only _ _).mono (by simp))) h3

theorem evaluateEvents_only (s : State) : OnlyChanges [.lur, .mxp, .crs, .attn, .waves] s (evaluateEvents s) :=
  (OnlyChanges.foldl _ (fun s _ => (setEvent_only _ _ s).mono (by simp)) _ s).trans
    (OnlyChanges.foldl _ (fun s _ => eventChanged_only _ _ _ s) _ _)

theorem evaluateIfSet_only (s : State) : OnlyChanges [.lur, .mxp, .crs, .attn, .waves] s (evaluateIfSet s) :=
  (evaluateEvents_only s).ite (OnlyChanges.refl _ s)

/-! ## Outages -/

theorem leaveOutage_only (d m : Nat) (s : State) : OnlyChanges [.bjn, .dtb, .attn, .olz] s (leaveOutage d m s) :=
  (((endEpisode_only d s).mono (by simp)).trans ((setDrop_only _ _ _).mono (by simp))).trans
    ((leaveCount_only _ _).mono (by simp))

theorem enterOutage_only (d n : Nat) (s : State) : OnlyChanges [.dtb, .olz] s (enterOutage d n s) :=
  ((setDrop_only _ _ s).mono (by simp)).trans ((enterCount_only _ _).mono (by simp))

theorem markLink_only (d : Nat) (s : State) : OnlyChanges [.queue, .dtb] s (markLink d s) := by
  unfold markLink
  dsimp only
  split
  · exact ((setQueue_only _ s).mono (by simp)).trans ((setDrop_only _ _ _).mono (by simp))
  · exact (setDrop_only _ _ s).mono (by simp)
  all_goals exact OnlyChanges.refl _ s

theorem transition_only (d : Nat) (n : Option Nat) (s : State) :
    OnlyChanges [.queue, .bjn, .dtb, .attn, .olz] s (transition d n s) := by
  unfold transition
  dsimp only
  split
  · exact OnlyChanges.refl _ s
  · exact OnlyChanges.ite ((vacate_only d s).mono (by simp))
      (((enterOutage_only d _ s).mono (by simp)).trans ((markLink_only d _).mono (by simp)))
  · exact ((leaveOutage_only d _ s).mono (by simp)).trans ((setDrop_only _ _ _).mono (by simp))
  · refine OnlyChanges.ite (OnlyChanges.refl _ s) (OnlyChanges.ite ?_ ?_)
    · exact ((setDrop_only _ _ s).mono (by simp)).trans
        (((leaveCount_only _ _).mono (by simp)).trans ((enterCount_only _ _).mono (by simp)))
    · exact ((leaveOutage_only d _ s).mono (by simp)).trans ((enterOutage_only d _ _).mono (by simp))

theorem evaluateDrop_only (d : Nat) (s : State) :
    OnlyChanges [.queue, .bjn, .dtb, .attn, .olz] s (evaluateDrop d s) := by
  unfold evaluateDrop
  dsimp only
  have h := transition_only d (s.proper d) s
  exact OnlyChanges.ite (h.trans ((parkedRequest_only _ _ _).mono (by simp))) h

theorem settleMove_only (d : Nat) (s : State) : OnlyChanges [.queue, .bjn, .dtb, .attn, .olz] s (settleMove d s) :=
  (transition_only d (s.proper d) s).ite (OnlyChanges.refl _ s)

theorem settleAt_only (s : State) : OnlyChanges [.queue, .bjn, .dtb, .attn, .olz] s (settleAt s) := by
  unfold settleAt
  dsimp only
  have h := settleMove_only s.olz.cursor s
  have g := h.trans ((parkedRequest_only .settle s.olz.cursor _).mono (by simp))
  have p := fun n b (u : State) => (setPass_only n b u).mono (qs := [.queue, .bjn, .dtb, .attn, .olz]) (by simp)
  refine OnlyChanges.ite (p _ _ s) (OnlyChanges.ite ?_ (h.trans (p _ _ _)))
  exact OnlyChanges.ite (g.trans (p _ _ _)) (g.trans (p _ _ _))

theorem settleVisit_only (s : State) : OnlyChanges [.queue, .bjn, .dtb, .attn, .olz, .waves] s (settleVisit s) := by
  unfold settleVisit
  have h := (settleAt_only s).mono (qs := [.queue, .bjn, .dtb, .attn, .olz, .waves]) (by simp)
  exact OnlyChanges.ite (h.trans ((oweWaveVisit_only _).mono (by simp))) h

theorem sendEffect_only (d : Nat) (s : State) : OnlyChanges [.queue, .dtb] s (sendEffect d s) := by
  unfold sendEffect
  dsimp only
  have h := request_only .host false d s
  exact OnlyChanges.ite (h.trans ((setDrop_only _ _ _).mono (by simp))) h

theorem openRecord_only (k : OutageKind) (c : Bool) (r : Nat) (o : Word) (t : Option Word) (s : State) :
    OnlyChanges [.olz, .attn] s (openRecord k c r o t s).1 := by
  unfold openRecord
  dsimp only
  refine OnlyChanges.trans (t := { s with olz := _ }) ?_ ((raise_only _ _).mono (by simp))
  intro p hp
  cases p <;> first | rfl | simp at hp

theorem clearRecord_only (n : Nat) (r : CloseReason) (x : List Nat) (m : Bool) (s : State) :
    OnlyChanges [.olz, .attn] s (clearRecord n r x m s) := by
  unfold clearRecord
  dsimp only
  refine OnlyChanges.trans (t := { s with olz := _ }) ?_ ((raise_only _ _).mono (by simp))
  intro p hp
  cases p <;> first | rfl | simp at hp

theorem setUnlogged_only (b : Bool) (u : Nat) (s : State) : OnlyChanges [.ppl] s (setUnlogged b u s) :=
  setUnit_only u _ s

theorem flagUnlogged_only (u : Nat) (s : State) : OnlyChanges [.ppl, .attn] s (flagUnlogged u s) :=
  ((setUnlogged_only true u s).mono (by simp)).trans ((raise_only _ _).mono (by simp))

theorem openSilent_only (u : Nat) (s : State) : OnlyChanges [.olz, .attn] s (openSilent u s) := by
  unfold openSilent
  dsimp only
  exact (openRecord_only _ _ _ _ _ s).trans (OnlyChanges.foldl _ (fun s m => clearRecord_only m _ _ _ s) _ _)

theorem enteredSilent_only (u : Nat) (s : State) : OnlyChanges [.olz, .ppl, .attn] s (enteredSilent u s) := by
  unfold enteredSilent
  exact OnlyChanges.ite (OnlyChanges.refl _ s)
    (OnlyChanges.ite ((openSilent_only u s).mono (by simp)) ((flagUnlogged_only u s).mono (by simp)))

theorem searchUnlogged_only (s : State) : OnlyChanges [.olz, .ppl, .attn] s (searchUnlogged s) :=
  OnlyChanges.foldl _ (fun s u => OnlyChanges.ite
    (((openSilent_only u s).mono (by simp)).trans ((setUnlogged_only _ _ _).mono (by simp)))
    (OnlyChanges.refl _ s)) _ s

theorem openSplits_only (o : Outage) (us : List Nat) (s : State) :
    OnlyChanges [.olz, .ppl, .attn] s (openSplits o us s).1 := by
  induction us generalizing s with
  | nil => exact OnlyChanges.refl _ s
  | cons u us ih =>
    unfold openSplits
    split
    · exact ((openRecord_only _ _ _ _ _ s).mono (by simp)).trans
        (((setUnlogged_only _ _ _).mono (by simp)).trans (ih _))
    · exact OnlyChanges.refl _ s

theorem endSilent_only (o : Outage) (s : State) : OnlyChanges [.olz, .ppl, .attn] s (endSilent o s) := by
  unfold endSilent
  dsimp only
  have h := openSplits_only o (splitRoots s o.root) s
  refine OnlyChanges.trans (OnlyChanges.ite ?_ ?_)
    (OnlyChanges.foldl _ (fun s u => (flagUnlogged_only u s).mono (by simp)) _ _)
  · exact h.trans ((clearRecord_only _ _ _ _ _).mono (by simp))
  · exact h.trans ((clearRecord_only _ _ _ _ _).mono (by simp))

theorem unitRecovered_only (r : Nat) (s : State) : OnlyChanges [.olz, .ppl, .attn] s (unitRecovered r s) := by
  unfold unitRecovered
  split
  · exact endSilent_only _ s
  · exact OnlyChanges.refl _ s

/-! ## The plant's poll, the window outcomes and purchases -/

theorem leaveService_only (u : Nat) (s : State) : OnlyChanges [.olz, .ppl, .attn] s (leaveService u s) := by
  unfold leaveService
  dsimp only
  have h := (setUnit_only u ((s.unit u).settledTo .outOfService) s).mono (qs := [.olz, .ppl, .attn]) (by simp)
  exact OnlyChanges.ite (h.trans (unitRecovered_only u _)) h

theorem applyHeld_only (u : Nat) (s : State) : OnlyChanges [.olz, .ppl, .attn] s (applyHeld u s) := by
  unfold applyHeld
  exact OnlyChanges.ite (OnlyChanges.refl _ s) (OnlyChanges.ite (leaveService_only u s)
    (OnlyChanges.ite ((setUnit_only u _ s).mono (by simp)) (OnlyChanges.refl _ s)))

theorem removePoll_only (s : State) : OnlyChanges [.ppl] s (removePoll s) := by
  unfold removePoll
  split <;> (intro p hp; cases p <;> first | rfl | simp at hp)

theorem endPoll_only (p : Poll) (s : State) : OnlyChanges [.olz, .ppl, .attn] s (endPoll p s) := by
  unfold endPoll
  dsimp only
  have h := (removePoll_only s).mono (qs := [.olz, .ppl, .attn]) (by simp)
  exact OnlyChanges.ite (h.trans (applyHeld_only _ _)) h

theorem unitMissed_only (u : Nat) (w : Word) (s : State) : OnlyChanges [.olz, .ppl, .attn] s (unitMissed u w s) := by
  unfold unitMissed
  dsimp only
  have h := (setUnit_only u ((s.unit u).missedCycle s.params.silentCycles w) s).mono (qs := [.olz, .ppl, .attn])
    (by simp)
  exact OnlyChanges.ite (h.trans (((raise_only _ _).mono (by simp)).trans (enteredSilent_only u _))) h

theorem unitAnswered_only (u : Nat) (st : UnitStatus) (s : State) :
    OnlyChanges [.olz, .ppl, .attn] s (unitAnswered u st s) := by
  unfold unitAnswered
  dsimp only
  have h := fun r b => ((setUnit_only u r s).mono (qs := [.olz, .ppl, .attn]) (by simp)).trans
    ((raiseIf_only b .plant _).mono (by simp))
  exact OnlyChanges.ite ((h _ _).trans (unitRecovered_only u _)) (h _ _)

theorem pollMiss_only (w : Window) (s : State) : OnlyChanges [.olz, .ppl, .attn] s (pollMiss w s) := by
  unfold pollMiss
  split
  · exact OnlyChanges.refl _ s
  · refine OnlyChanges.ite (OnlyChanges.refl _ s) (OnlyChanges.ite ?_ (OnlyChanges.ite (endPoll_only _ s) ?_))
    · exact (unitMissed_only _ _ s).trans (endPoll_only _ _)
    · exact (setPoll_only _ s).mono (by simp)

theorem leaveUnconfirmed_only (k : Kind) (d : Nat) (s : State) :
    OnlyChanges [.queue, .dtb, .olz, .attn] s (leaveUnconfirmed k d s) := by
  unfold leaveUnconfirmed
  exact OnlyChanges.ite (((vacate_only d s).mono (by simp)).trans ((raise_only _ _).mono (by simp)))
    (((setDrop_only d _ s).mono (by simp)).trans ((raise_only _ _).mono (by simp)))

theorem requestAgain_only (c : QClass) (k : Kind) (d : Nat) (s : State) :
    OnlyChanges [.queue, .dtb, .olz, .attn] s (requestAgain c k d s) := by
  unfold requestAgain
  dsimp only
  have h := (queueRequest_only c false d s).mono (qs := [.queue, .dtb, .olz, .attn]) (by simp)
  exact OnlyChanges.ite (h.trans (leaveUnconfirmed_only k d _)) h

theorem authMiss_only (d : Nat) (s : State) : OnlyChanges [.queue, .dtb, .olz, .attn] s (authMiss d s) := by
  unfold authMiss
  dsimp only
  have h := fun r => (setDrop_only d r s).mono (qs := [.queue, .dtb, .olz, .attn]) (by simp)
  exact OnlyChanges.ite (OnlyChanges.refl _ s) (OnlyChanges.ite (h _)
    (OnlyChanges.ite ((h _).trans (requestAgain_only _ _ d _))
      (OnlyChanges.ite ((h _).trans (requestAgain_only _ _ d _)) ((h _).trans (leaveUnconfirmed_only _ d _)))))

theorem purchase_only (d p : Nat) (s : State) : OnlyChanges [.queue, .dtb, .bjn, .attn] s (purchase d p s) := by
  have h : ∀ s : State, OnlyChanges [.queue, .dtb, .bjn, .attn] s (purchaseRequest d s) := fun s => by
    unfold purchaseRequest
    exact OnlyChanges.ite ((request_only _ _ d s).mono (by simp)) (OnlyChanges.refl _ s)
  unfold purchase
  refine OnlyChanges.ite (OnlyChanges.refl _ s) ?_
  split
  · unfold takePurchase
    dsimp only
    exact ((setDrop_only d _ s).mono (by simp)).trans (((writeRecord_only _ _).mono (by simp)).trans
      (((request_only _ _ d _).mono (by simp)).trans ((raise_only _ _).mono (by simp))))
  · exact h s
  · exact (h s).trans ((raise_only _ _).mono (by simp))
  · exact OnlyChanges.refl _ s

/-! ## What a loss and a return do -/

theorem sourceLost_only (k : Nat) (b : Bool) (s : State) :
    OnlyChanges [.lur, .mxp, .crs, .attn] s (sourceLost k b s) := by
  unfold sourceLost
  dsimp only
  exact (OnlyChanges.foldl _ (fun s j => (setLatch_only true j s).mono (by simp)) _ s).trans
    (((raiseIf_only _ _ _).mono (by simp)).trans (((raiseIf_only _ _ _).mono (by simp)).trans
      ((resolveSlots_only _ _).mono (by simp))))

theorem sourceReturned_only (k : Nat) (s : State) : OnlyChanges [.lur, .mxp, .crs] s (sourceReturned k s) := by
  unfold sourceReturned
  dsimp only
  exact (OnlyChanges.foldl _ (fun s j => (setLatch_only false j s).mono (by simp)) _ s).trans (resolveSlots_only _ _)

end Sys2Proof.Laws
end

