-- ==== Sys2Proof/Laws/Dispatch.lean ====
section
/-! SUPPORT. The dispatch of a request line, said once: what `dispatch` and `answer` give when a lane takes a line, and
how the effect of a verb on the state without its line becomes `Accepts`, `Refuses` or `Answers`. -/

namespace Sys2Proof.Laws

open Sys2Proof.Machine

/-- The state without the line that a lane dispatches differs from the state before in the Office Port alone. -/
theorem popLine_keeps (l : Lane) (s : State) : (popLine l s).draws = s.draws ∧ (popLine l s).pending = s.pending :=
  ⟨rfl, rfl⟩

theorem dispatch_takes {v : Verb} {l : Lane} {tag : Byte} {args : List Text} {s : State} (h : Takes v l tag args s)
    (act : List Text → State → State × Reply) :
    dispatch v l act s
      = .next (emit (.reply l tag (act args (popLine l s)).2) (act args (popLine l s)).1).report := by
  simp only [dispatch, h.1, h.2, if_true, done]

theorem answer_takes {v : Verb} {l : Lane} {tag : Byte} {args : List Text} {s : State} (h : Takes v l tag args s)
    (read : List Text → State → Reply) :
    answer v l read s = .next (answered l tag (read args (popLine l s)) s) := by
  simp only [answer, h.1, h.2, if_true, answered]

theorem inbox_setInbox (k l : Lane) (x : List Line) (o : Ofp) :
    (o.setInbox l x).inbox k = if k = l then x else o.inbox k := by
  cases k <;> cases l <;> rfl

/-- A state that agrees with the state without the line on the Office Port, the attention set aside, carries the reply
once it is appended. -/
theorem replied_of_office {l : Lane} {tag : Byte} {r : Reply} {s u : State} (h : Agree .office (popLine l s) u) :
    Replied l tag r s (emit (.reply l tag r) u).report := by
  have h' : { u.ofp with attn := [] } = { (popLine l s).ofp with attn := [] } := h
  injection h' with hp hm hq hout hheld hsave hclear _ hcompat
  have hin : ∀ k, u.ofp.inbox k = (popLine l s).ofp.inbox k := fun k => by cases k <;> assumption
  refine ⟨congrArg (· ++ [OutLine.reply l tag r]) (hout.trans (by cases l <;> rfl)), fun k => ?_,
    hheld.trans (by cases l <;> rfl), hsave.trans (by cases l <;> rfl), hclear.trans (by cases l <;> rfl),
    hcompat.trans (by cases l <;> rfl)⟩
  refine (hin k).trans ((inbox_setInbox k l _ s.ofp).trans ?_)
  by_cases hk : k = l
  · subst hk; rfl
  · simp only [hk, if_false]

/-- A dispatched verb whose effect changes only the parts `ps` of the state without the line is carried out. -/
theorem accepts_of_effect {c : Instr} {v : Verb} {l : Lane} {tag : Byte} {args : List Text} {s u : State} {r : Reply}
    {act : List Text → State → State × Reply} {ps : List Part} {q : State → Prop} (hc : exec c s = dispatch v l act s)
    (h : Takes v l tag args s) (hu : act args (popLine l s) = (u, r)) (ho : OnlyChanges ps (popLine l s) u)
    (hps : Part.office ∉ ps) (hq : q (emit (.reply l tag r) u).report) : Accepts c l tag r s ps q := by
  refine ⟨_, (hc.trans (dispatch_takes h act)).trans ?_, replied_of_office (ho .office hps), ?_, hq⟩
  · rw [hu]
  · have h1 := (popLine_only l s).mono (qs := .office :: .marks :: ps) (by simp)
    have h2 := ho.mono (qs := .office :: .marks :: ps) fun x hx => by simp [hx]
    have h3 := (emit_only (.reply l tag r) u).mono (qs := .office :: .marks :: ps) (by simp)
    exact ((h1.trans h2).trans h3).trans ((report_only _).mono (by simp))

/-- A dispatched verb that its owner refuses changes nothing. -/
theorem refuses_of_effect {c : Instr} {v : Verb} {l : Lane} {tag : Byte} {args : List Text} {s : State} {why : Reason}
    {act : List Text → State → State × Reply} (hc : exec c s = dispatch v l act s) (h : Takes v l tag args s)
    (hu : act args (popLine l s) = refuse why (popLine l s)) : Refuses c l tag why s :=
  accepts_of_effect hc h hu (OnlyChanges.refl [] _) (by simp) trivial

/-- A verb that reads, and its reply. -/
theorem answers_of_read {c : Instr} {v : Verb} {l : Lane} {tag : Byte} {args : List Text} {s : State} {r : Reply}
    {read : List Text → State → Reply} (hc : exec c s = answer v l read s) (h : Takes v l tag args s)
    (hr : read args (popLine l s) = r) : Answers c l tag r s :=
  (hc.trans (answer_takes h read)).trans (by rw [hr])

end Sys2Proof.Laws
end

