-- ==== Sys2Proof/Laws/Image.lean ====
section
/-! SUPPORT. The saved image's header: what a number written as bytes reads back as, field by field, and what a load makes
of the image a save has written. -/

namespace Sys2Proof.Laws

open Sys2Proof.Machine

@[simp] theorem bytesOf_length (n v : Nat) : (bytesOf n v).length = n := by
  induction n generalizing v with
  | zero => rfl
  | succ n ih => simp [bytesOf, ih]

/-- A number below 256 to the `n` reads back from its `n` bytes. -/
theorem numberOf_bytesOf (n v : Nat) (h : v < 256 ^ n) : numberOf (bytesOf n v) = v := by
  induction n generalizing v with
  | zero =>
    have : v = 0 := by simpa using h
    subst this
    rfl
  | succ n ih =>
    have hd : v / 256 < 256 ^ n := Nat.div_lt_of_lt_mul (by rw [Nat.pow_succ] at h; omega)
    have hi : numberOf (bytesOf n (v / 256)) = v / 256 := ih _ hd
    unfold numberOf at hi ⊢
    rw [bytesOf, List.foldl_append, hi]
    simp only [List.foldl_cons, List.foldl_nil, BitVec.toNat_ofNat]
    have : v % 256 % 2 ^ 8 = v % 256 := by omega
    rw [this]
    omega

@[simp] theorem imageHeader_length (g : Nat) (body : List Byte) : (imageHeader g body).length = 14 := by
  simp [imageHeader]

/-- The field that stands behind `a` and before `c` in some bytes. -/
theorem headerNumber_of_append {h a b c : List Byte} {k n v : Nat} (he : h = a ++ b ++ c) (ha : a.length = k)
    (hb : b = bytesOf n v) (hv : v < 256 ^ n) : headerNumber h k n = v := by
  subst ha
  have hl : b.length = n := by simp [hb]
  rw [headerNumber, he, List.append_assoc, List.drop_left, ← hl, List.take_left, hb]
  exact numberOf_bytesOf n v hv

theorem imageHeader_version (g : Nat) (body : List Byte) : headerNumber (imageHeader g body) 0 2 = 1 :=
  headerNumber_of_append (a := []) (b := bytesOf 2 1)
    (c := bytesOf 4 body.length ++ bytesOf 4 g ++ bytesOf 4 (crc32 body).toNat)
    (by simp [imageHeader]) rfl rfl (by decide)

theorem imageHeader_bodyLength (g : Nat) (body : List Byte) (h : body.length < 4294967296) :
    headerNumber (imageHeader g body) 2 4 = body.length :=
  headerNumber_of_append (a := bytesOf 2 1) (c := bytesOf 4 g ++ bytesOf 4 (crc32 body).toNat)
    (by simp [imageHeader]) (by simp) rfl h

theorem imageHeader_generation (g : Nat) (body : List Byte) (h : g < 4294967296) :
    headerNumber (imageHeader g body) 6 4 = g :=
  headerNumber_of_append (a := bytesOf 2 1 ++ bytesOf 4 body.length) (c := bytesOf 4 (crc32 body).toNat)
    (by simp [imageHeader]) (by simp) rfl h

theorem imageHeader_check (g : Nat) (body : List Byte) :
    headerNumber (imageHeader g body) 10 4 = (crc32 body).toNat :=
  headerNumber_of_append (a := bytesOf 2 1 ++ bytesOf 4 body.length ++ bytesOf 4 g) (c := [])
    (by simp [imageHeader]) (by simp) rfl (crc32 body).isLt

theorem imageBody_length (i : SavedImage) : 1 ≤ (imageBody i).length ∧ (imageBody i).length ≤ 1044480 := by
  simp only [imageBody, List.length_cons, List.length_take]
  omega

/-- A header that a save writes is not blank: its first byte is 0. -/
theorem imageHeader_not_blank (g : Nat) (body : List Byte) : blankHeader (imageHeader g body) = false := by
  simp [blankHeader, imageHeader, bytesOf]

/-- A flash that holds a complete image is judged by what is read of it (R178). -/
theorem judgeLoad_image (g : Nat) (i : SavedImage) (r : FlashRead) : judgeLoad (.image g i) r = judgeImage r := rfl

/-- What a completed save has written loads with its generation, if every field is in range (R178, R179). -/
theorem judgeImage_imageRead (g : Nat) (i : SavedImage) (h : g < 4294967296) :
    judgeImage (imageRead g i) = if imageFits i then (.loaded, some (g, i)) else (.invalid, none) := by
  have hb := imageBody_length i
  have hl := imageHeader_bodyLength g (imageBody i) (by omega)
  simp only [judgeImage, imageRead, imageHeader_not_blank, hl, imageHeader_version, imageHeader_generation g _ h,
    imageHeader_check, List.take_length]
  simp only [Bool.false_eq_true, if_false, hb.1, hb.2, le_refl, and_self, if_true, Option.filter]
  by_cases hf : imageFits i <;> simp [hf]

end Sys2Proof.Laws
end

