-- ==== Sys2Proof/Laws/Misses.lean ====
section
/-! SUPPORT. What each owner of a reply window does with its miss, said once (R79, R93, R94, R114), and with a purchase
(R98 to R100). -/

namespace Sys2Proof.Laws

open Sys2Proof.Machine

theorem raised_nil (s : State) : Raised [] s s := fun _ => by simp

theorem raised_raise (k : Kind) (s t : State) (h : t.ofp = s.ofp) : Raised [k] s (raise k t) := fun j => by
  have : ∀ j, t.attn j = s.attn j := fun j => by unfold State.attn; rw [h]
  by_cases hj : j = k <;> simp [hj, this]

@[simp] theorem raised_raised (a : Attn) : a.raised.raised = a.raised := by
  unfold Attn.raised
  by_cases h : a.pending = true <;> simp [h]

@[simp] theorem setQueue_queue (s : State) (q : List QEntry) : (s.setQueue q).aen.queue = q := rfl
@[simp] theorem setQueue_drop (s : State) (q : List QEntry) (d : Nat) : (s.setQueue q).drop d = s.drop d := rfl
@[simp] theorem raise_drop (s : State) (k : Kind) (d : Nat) : (raise k s).drop d = s.drop d := rfl
@[simp] theorem raise_queue (s : State) (k : Kind) : (raise k s).aen = s.aen := rfl
@[simp] theorem setDrop_guards (s : State) (d : Nat) (r : Drop) : (s.setDrop d r).dtb.guards = s.dtb.guards := rfl

@[simp] theorem leaveCount_drop (s : State) (n d : Nat) : (leaveCount n s).drop d = s.drop d := rfl
@[simp] theorem leaveCount_dtb (s : State) (n : Nat) : (leaveCount n s).dtb = s.dtb := rfl
@[simp] theorem leaveCount_aen (s : State) (n : Nat) : (leaveCount n s).aen = s.aen := rfl
@[simp] theorem leaveCount_ofp (s : State) (n : Nat) : (leaveCount n s).ofp = s.ofp := rfl

/-- What vacating a drop leaves of the drops, the queue, the attention set and the log. -/
theorem vacate_spec (d : Nat) (s : State) :
    OnlyDrop d s (vacate d s) ∧ (vacate d s).drop d = vacatedRecord (s.drop d) ∧ (vacate d s).ofp = s.ofp
      ∧ ((s.drop d).link ≠ some .queued → (vacate d s).aen = s.aen)
      ∧ ((s.drop d).outage = none → (vacate d s).olz = s.olz) := by
  unfold vacate
  by_cases hl : (s.drop d).link = some .queued <;> cases ho : (s.drop d).outage <;>
    simp +contextual [hl, ho, OnlyDrop, vacatedRecord, Drop.vacated]

/-- What a drop left UNCONFIRMED by an outcome becomes (R78, R79, R92, R93). -/
theorem leaveUnconfirmed_spec (k : Kind) (d : Nat) (s : State) (hl : (s.drop d).link ≠ some .queued) :
    let t := leaveUnconfirmed k d s
    let v := (s.drop d).service = .closing
    OnlyDrop d s t ∧ t.aen = s.aen ∧ Raised (if v then [.auth] else [k]) s t
      ∧ ((v → (s.drop d).outage = none) → t.olz = s.olz)
      ∧ t.drop d = if v then vacatedRecord (s.drop d) else { s.drop d with link := some .unconfirmed } := by
  dsimp only
  unfold leaveUnconfirmed
  by_cases hv : (s.drop d).service = .closing
  · obtain ⟨h1, h2, h3, h4, h5⟩ := vacate_spec d s
    simp only [hv, if_true]
    exact ⟨h1, h4 hl, raised_raise _ _ _ h3, fun h => h5 (h trivial), h2⟩
  · simp only [hv, if_false]
    refine ⟨⟨rfl, fun j hj => ?_⟩, rfl, raised_raise _ _ _ rfl, fun _ => rfl, ?_⟩
    · simp [setLink, hj]
    · simp [setLink]

/-- The request an outcome makes for a drop that is SETTLED or UNCONFIRMED (R66, R78, R79, R92, R93). -/
theorem requestAgain_spec (cls : QClass) (k : Kind) (d : Nat) (s : State) (hc : cls = .requeue ∨ cls = .retry)
    (hl : (s.drop d).link = some .settled ∨ (s.drop d).link = some .unconfirmed) :
    let t := requestAgain cls k d s
    let r := s.drop d
    OnlyDrop d s t
      ∧ (r.outage ≠ none → t.aen = s.aen ∧ t.ofp = s.ofp ∧ t.olz = s.olz ∧ t.drop d = { r with link := some .parked })
      ∧ (r.outage = none → s.aen.queue.length < 64 → t.aen.queue = s.aen.queue ++ [⟨d, false⟩] ∧ t.ofp = s.ofp
          ∧ t.olz = s.olz
          ∧ t.drop d = { r with link := some .queued, attempts := if cls = .retry then r.attempts else 0 })
      ∧ (r.outage = none → 64 ≤ s.aen.queue.length → t = leaveUnconfirmed k d s) := by
  dsimp only
  have hq : queueRequest cls false d s
      = if (s.drop d).outage.isSome then (s.setDrop d { s.drop d with link := some .parked }, .parked)
        else if s.aen.queue.length < 64 then
          ((s.setQueue (s.aen.queue ++ [⟨d, false⟩])).setDrop d
            { s.drop d with link := some .queued, attempts := if cls = .retry then (s.drop d).attempts else 0 }, .queued)
        else (s, .noPlace) := by
    rcases hl with h | h <;> rcases hc with rfl | rfl <;> simp [queueRequest, h, QClass.limit, placeEntry]
  unfold requestAgain
  rw [hq]
  cases ho : (s.drop d).outage with
  | some n => simp +contextual [OnlyDrop, ho]
  | none =>
    by_cases hp : s.aen.queue.length < 64
    · simp +contextual [OnlyDrop, hp]
      omega
    · have hs := leaveUnconfirmed_spec k d s (by rcases hl with h | h <;> simp [h])
      simp only [Option.isSome_none, Bool.false_eq_true, if_false, hp, if_true]
      exact ⟨hs.1, by simp, fun _ h => h.elim, fun _ _ => trivial⟩

/-- A change of the drop before an outcome does not matter to what the outcome leaves of the others. -/
theorem onlyDrop_setDrop {d : Nat} {r : Drop} {s t : State} (h : OnlyDrop d (s.setDrop d r) t) : OnlyDrop d s t :=
  ⟨h.1, fun j hj => (h.2 j hj).trans (by simp [hj])⟩

theorem raised_of_ofp {ks : List Kind} {s t u : State} (h : t.ofp = s.ofp) (g : Raised ks t u) : Raised ks s u := by
  have : ∀ j, t.attn j = s.attn j := fun j => by unfold State.attn; rw [h]
  intro k
  rw [g k, this]

theorem raised_of_eq {s t : State} (h : t.ofp = s.ofp) : Raised [] s t := fun k => by
  unfold State.attn
  simp [h]

/-- The miss of an AUTH window (R79). -/
theorem authMiss_spec (d : Nat) (s : State) : AuthMissed d s (authMiss d s) := by
  refine ⟨(authMiss_only d s).mono (by simp), ?_⟩
  unfold authMiss
  dsimp only
  by_cases hv : (s.drop d).service = .vacant
  · simp [hv, raised_nil, OnlyDrop]
  by_cases hp : (s.drop d).parkOnClose = true
  · simp +contextual [hv, hp, OnlyDrop, Drop.parkedByMiss]
    exact raised_of_eq rfl
  rw [if_neg hv, if_neg hp]
  generalize hx : ({ s.drop d with link := some .unconfirmed, stale := false } : Drop) = x
  have hd : (s.setDrop d x).drop d = x := by simp
  have hs : x.service = (s.drop d).service := by rw [← hx]
  have ho : x.outage = (s.drop d).outage := by rw [← hx]
  have hxl : x.link = some .unconfirmed := by rw [← hx]
  have hxa : x.attempts = (s.drop d).attempts := by rw [← hx]
  have hvx : vacatedRecord x = vacatedRecord (s.drop d) := by rw [← hx]; rfl
  have hxx : ({ x with link := some .unconfirmed } : Drop) = x := by rw [← hx]
  have hu := leaveUnconfirmed_spec .auth d (s.setDrop d x) (by rw [hd, hxl]; simp)
  rw [hd, hs, hvx, ho, hxx] at hu
  obtain ⟨u1, u2, u3, u4, u5⟩ := hu
  have key : ∀ cls, (cls = .requeue ∨ cls = .retry) →
      let t := requestAgain cls .auth d (s.setDrop d x)
      OnlyDrop d s t ∧ (((s.drop d).service = .closing → (s.drop d).outage = none) → t.olz = s.olz)
        ∧ ((s.drop d).outage ≠ none → t.aen.queue = s.aen.queue ∧ Raised [] s t
            ∧ t.drop d = { x with link := some .parked })
        ∧ ((s.drop d).outage = none → s.aen.queue.length < 64 → t.aen.queue = s.aen.queue ++ [⟨d, false⟩] ∧ Raised [] s t
            ∧ t.drop d = { x with link := some .queued, attempts := if cls = .retry then x.attempts else 0 })
        ∧ ((s.drop d).outage = none → 64 ≤ s.aen.queue.length → t.aen.queue = s.aen.queue ∧ Raised [.auth] s t
            ∧ t.drop d = if (s.drop d).service = .closing then vacatedRecord (s.drop d) else x) := by
    intro cls hc
    have h := requestAgain_spec cls .auth d (s.setDrop d x) hc (by rw [hd, hxl]; simp)
    simp only [hd] at h
    obtain ⟨r1, r2, r3, r4⟩ := h
    rw [← ho] at u4 ⊢
    refine ⟨onlyDrop_setDrop r1, fun hq => ?_, fun h => ?_, fun h1 h2 => ?_, fun h1 h2 => ?_⟩
    · by_cases h1 : x.outage = none
      · by_cases h2 : s.aen.queue.length < 64
        · exact (r3 h1 h2).2.2.1
        · rw [r4 h1 (by simpa using Nat.le_of_not_lt h2)]; exact u4 hq
      · exact (r2 h1).2.2.1
    · obtain ⟨a, b, _, c⟩ := r2 h
      exact ⟨by rw [a]; rfl, raised_of_eq b, c⟩
    · obtain ⟨a, b, _, c⟩ := r3 h1 h2
      exact ⟨a, raised_of_eq b, c⟩
    · rw [r4 h1 h2]
      refine ⟨by rw [u2]; rfl, raised_of_ofp (t := s.setDrop d x) rfl ?_, u5⟩
      simpa using u3
  subst hx
  by_cases hst : (s.drop d).stale = true
  · obtain ⟨k1, k2, k3, k4, k5⟩ := key .requeue (.inl rfl)
    rw [if_pos hst]
    exact ⟨k1, k2, fun h => absurd h hv, fun _ h => absurd h hp, fun _ _ _ h => k3 h,
      fun _ _ _ a b => by simpa [hst] using k4 a b, fun _ _ h => k5 (h (.inl hst)).1 (h (.inl hst)).2⟩
  rw [if_neg hst]
  by_cases ha : (s.drop d).attempts < s.params.authTries
  · obtain ⟨k1, k2, k3, k4, k5⟩ := key .retry (.inr rfl)
    rw [if_pos ha]
    exact ⟨k1, k2, fun h => absurd h hv, fun _ h => absurd h hp, fun _ _ _ h => k3 h,
      fun _ _ _ a b => by simpa [hst, hxa] using k4 a b, fun _ _ h => k5 (h (.inr ha)).1 (h (.inr ha)).2⟩
  · rw [if_neg ha]
    have hn : ¬((s.drop d).stale = true ∨ (s.drop d).attempts < s.params.authTries) := fun h => h.elim hst ha
    exact ⟨onlyDrop_setDrop u1, fun h => u4 h, fun h => absurd h hv, fun _ h => absurd h hp, fun _ _ h => absurd h hn,
      fun _ _ h => absurd h hn, fun _ _ _ => ⟨by rw [u2]; rfl,
        raised_of_ofp (t := s.setDrop d _) rfl (by simpa using u3), u5⟩⟩

theorem takeOutstanding_prior (d : Nat) (o : Outstanding) (s : State)
    (h : s.rsw.outstanding.find? (fun o => o.drop == d) = some o) : (takeOutstanding d s).2 = o.link := by
  simp [takeOutstanding, h]

/-- A drop in no outage leaves service without a word to the outage log. -/
theorem leaveUnconfirmed_in_no_outage (k : Kind) (d : Nat) (s : State) (ho : (s.drop d).outage = none) :
    OnlyDrop d s (leaveUnconfirmed k d s) ∧ (leaveUnconfirmed k d s).olz = s.olz := by
  unfold leaveUnconfirmed
  by_cases hv : (s.drop d).service = .closing
  · obtain ⟨h1, _, _, _, h5⟩ := vacate_spec d s
    simp only [hv, if_true]
    exact ⟨h1, h5 ho⟩
  · simp only [hv, if_false]
    exact ⟨⟨rfl, fun j hj => by simp [setLink, hj]⟩, rfl⟩

/-- A log that has not changed is none of the parts that have. -/
theorem only_without_olz {s t : State} (h : OnlyChanges [.queue, .dtb, .olz, .attn] s t) (ho : t.olz = s.olz) :
    OnlyChanges [.dtb, .queue, .attn] s t := by
  intro p hp
  cases p <;> first | exact ho | exact h _ (by decide) | exact absurd (by decide) hp

theorem leaveUnconfirmed_only_in_no_outage (k : Kind) (d : Nat) (s : State) (ho : (s.drop d).outage = none) :
    OnlyChanges [.dtb, .queue, .attn] s (leaveUnconfirmed k d s) :=
  only_without_olz (leaveUnconfirmed_only k d s) (leaveUnconfirmed_in_no_outage k d s ho).2

theorem requestAgain_only_in_no_outage (c : QClass) (k : Kind) (d : Nat) (s : State) (hc : c = .requeue ∨ c = .retry)
    (hl : (s.drop d).link = some .settled ∨ (s.drop d).link = some .unconfirmed) (ho : (s.drop d).outage = none) :
    OnlyChanges [.dtb, .queue, .attn] s (requestAgain c k d s) := by
  obtain ⟨_, _, h3, h4⟩ := requestAgain_spec c k d s hc hl
  by_cases hq : s.aen.queue.length < 64
  · exact only_without_olz (requestAgain_only c k d s) (h3 ho hq).2.2.1
  · rw [h4 ho (by omega)]
    exact leaveUnconfirmed_only_in_no_outage k d s ho

/-- The link effect of a refresh miss (R93) on a drop that is not VACANT. -/
theorem linkRefreshMiss_spec (prior : Link) (d : Nat) (s : State) :
    let t := linkRefreshMiss prior d s
    let r := s.drop d
    let n := min 15 (r.misses + 1)
    let reached := s.params.refreshMisses ≤ n
    let asked : Drop := { r with misses := n, stale := false, link := some .unconfirmed }
    let parks := r.outage ≠ none ∨ r.parkOnClose = true
    OnlyChanges [.dtb, .queue, .attn] s t ∧ OnlyDrop d s t
      ∧ (parks → t.aen.queue = s.aen.queue ∧ Raised [] s t
          ∧ t.drop d = { r with link := some .parked, parkOnClose := false, stale := false })
      ∧ (¬parks → r.stale = true → s.aen.queue.length < 64 →
          t.aen.queue = s.aen.queue ++ [⟨d, false⟩] ∧ Raised (if reached then [.refresh] else []) s t
            ∧ t.drop d = { asked with link := some .queued, attempts := 0 })
      ∧ (¬parks → r.stale = true → 64 ≤ s.aen.queue.length → t.aen.queue = s.aen.queue
          ∧ Raised (if r.service = .closing then (if reached then [.auth, .refresh] else [.auth]) else [.refresh]) s t
          ∧ t.drop d = if r.service = .closing then vacatedRecord r else asked)
      ∧ (¬parks → r.stale = false → reached → r.link = some .awaiting →
          t.aen.queue = s.aen.queue ∧ Raised (if r.service = .closing then [.auth] else [.refresh]) s t
            ∧ t.drop d = if r.service = .closing then vacatedRecord r
              else { r with misses := n, link := some .unconfirmed })
      ∧ (¬parks → r.stale = false → ¬reached →
          t.aen.queue = s.aen.queue ∧ Raised [] s t ∧ t.drop d = { r with misses := n, link := some prior }) := by
  dsimp only
  unfold linkRefreshMiss
  dsimp only
  have hset : ∀ r : Drop, OnlyChanges [.dtb, .queue, .attn] s (s.setDrop d r) :=
    fun r => (setDrop_only d r s).mono (by simp)
  have hone : ∀ r : Drop, OnlyDrop d s (s.setDrop d r) := fun r => ⟨rfl, fun j hj => by simp [hj]⟩
  by_cases hp : (s.drop d).outage ≠ none ∨ (s.drop d).parkOnClose = true
  · have hb : ((s.drop d).outage.isSome || (s.drop d).parkOnClose) = true := by
      rcases hp with h | h
      · cases ho : (s.drop d).outage <;> simp_all
      · simp [h]
    rw [if_pos hb]
    refine ⟨hset _, hone _, fun _ => ⟨rfl, raised_of_eq rfl, by simp [Drop.parkedByMiss]⟩, ?_, ?_, ?_, ?_⟩ <;>
      exact fun h => absurd hp h
  have ho : (s.drop d).outage = none := by
    cases h : (s.drop d).outage <;> simp_all
  have hb : ((s.drop d).outage.isSome || (s.drop d).parkOnClose) = false := by
    simp_all
  rw [if_neg (by simp [hb])]
  generalize hn : min 15 ((s.drop d).misses + 1) = n
  by_cases hst : (s.drop d).stale = true
  · rw [if_pos hst]
    generalize hx : ({ s.drop d with misses := n, stale := false, link := some .unconfirmed } : Drop) = x
    have hd : (s.setDrop d x).drop d = x := by simp
    have hxo : x.outage = none := by rw [← hx]; exact ho
    have hxl : x.link = some .unconfirmed := by rw [← hx]
    have hxs : x.service = (s.drop d).service := by rw [← hx]
    have hvx : vacatedRecord x = vacatedRecord (s.drop d) := by rw [← hx]; rfl
    have hxx : ({ x with link := some .unconfirmed } : Drop) = x := by rw [← hx]
    have hspec := requestAgain_spec .requeue .refresh d (s.setDrop d x) (.inl rfl) (by rw [hd, hxl]; simp)
    have honly := requestAgain_only_in_no_outage .requeue .refresh d (s.setDrop d x) (.inl rfl) (by rw [hd, hxl]; simp)
      (by rw [hd]; exact hxo)
    have hu := leaveUnconfirmed_spec .refresh d (s.setDrop d x) (by rw [hd, hxl]; simp)
    simp only [hd] at hspec hu
    obtain ⟨g1, -, g3, g4⟩ := hspec
    obtain ⟨-, u2, u3, -, u5⟩ := hu
    refine ⟨((hset x).trans honly).trans ((raiseIf_only _ _ _).mono (by simp)), ?_, fun h => absurd h hp, ?_, ?_,
      fun _ h => absurd hst (by simp [h]), fun _ h => absurd hst (by simp [h])⟩
    · have := onlyDrop_setDrop g1
      unfold raiseIf
      split <;> exact this
    · intro _ _ hq
      obtain ⟨a, b, -, c⟩ := g3 hxo hq
      by_cases hr : s.params.refreshMisses ≤ n
      · simp only [raiseIf, hr, decide_true, if_true]
        exact ⟨a, raised_raise _ _ _ b, by rw [raise_drop, c, ← hx]; rfl⟩
      · simp only [raiseIf, hr, decide_false, if_false, Bool.false_eq_true]
        exact ⟨a, raised_of_eq b, by rw [c, ← hx]; rfl⟩
    · intro _ _ hq
      rw [g4 hxo hq]
      rw [hxx, hvx] at u5
      rw [hxs] at u3 u5
      have v3 : Raised (if (s.drop d).service = .closing then [.auth] else [.refresh]) s
          (leaveUnconfirmed .refresh d (s.setDrop d x)) :=
        raised_of_ofp (t := s.setDrop d x) rfl u3
      by_cases hr : s.params.refreshMisses ≤ n
      · simp only [raiseIf, hr, decide_true, if_true]
        refine ⟨by rw [raise_queue, u2]; rfl, fun k => ?_, by rw [raise_drop]; exact u5⟩
        have hk := raised_raise .refresh _ (leaveUnconfirmed .refresh d (s.setDrop d x)) rfl k
        rw [hk, v3 k]
        by_cases hv : (s.drop d).service = .closing <;> cases k <;> simp [hv]
      · simp only [raiseIf, hr, decide_false, if_false, Bool.false_eq_true]
        exact ⟨by rw [u2]; rfl, v3, u5⟩
  · rw [if_neg hst]
    by_cases hr : s.params.refreshMisses ≤ n
    · rw [if_pos (by simpa using hr)]
      generalize hx : ({ s.drop d with misses := n } : Drop) = x
      have hd : (s.setDrop d x).drop d = x := by simp
      have hxo : ((s.setDrop d x).drop d).outage = none := by rw [hd, ← hx]; exact ho
      refine ⟨(hset x).trans (leaveUnconfirmed_only_in_no_outage _ d _ hxo),
        onlyDrop_setDrop (leaveUnconfirmed_in_no_outage _ d _ hxo).1, fun h => absurd h hp,
        fun _ h => absurd h hst, fun _ h => absurd h hst, fun _ _ _ hl => ?_, fun _ _ h => absurd hr h⟩
      have hxl : x.link = some .awaiting := by rw [← hx]; exact hl
      have hxs : x.service = (s.drop d).service := by rw [← hx]
      have hvx : vacatedRecord x = vacatedRecord (s.drop d) := by rw [← hx]; rfl
      obtain ⟨-, u2, u3, -, u5⟩ := leaveUnconfirmed_spec .refresh d (s.setDrop d x) (by rw [hd, hxl]; simp)
      rw [hd] at u3 u5
      rw [hxs] at u3 u5
      rw [hvx] at u5
      exact ⟨by rw [u2]; rfl, raised_of_ofp (t := s.setDrop d x) rfl u3, by rw [u5, ← hx]⟩
    · rw [if_neg (by simpa using hr)]
      exact ⟨hset _, hone _, fun h => absurd h hp, fun _ h => absurd h hst, fun _ h => absurd h hst,
        fun _ _ h => absurd h hr, fun _ _ _ => ⟨rfl, raised_of_eq rfl, by simp⟩⟩

@[simp] theorem takeOutstanding_drop (d j : Nat) (s : State) : (takeOutstanding d s).1.drop j = s.drop j := rfl

theorem takeOutstanding_only (d : Nat) (s : State) : OnlyChanges [.rsw] s (takeOutstanding d s).1 := by
  intro p hp
  cases p <;> first | rfl | exact absurd (by decide) hp

/-- The miss of a REFRESH window (R93, R94). -/
theorem refreshMiss_spec (d : Nat) (s : State) : RefreshMissed d s (refreshMiss d s) := by
  have hm : ∀ {t : State}, OnlyChanges [.dtb, .queue, .attn] (takeOutstanding d s).1 t →
      OnlyChanges [.dtb, .queue, .attn, .rsw] s t := fun h =>
    ((takeOutstanding_only d s).mono (by simp)).trans (h.mono (by simp))
  unfold RefreshMissed refreshMiss
  dsimp only
  rw [takeOutstanding_drop]
  by_cases hv : (s.drop d).service = .vacant
  · rw [if_pos hv]
    refine ⟨hm (OnlyChanges.refl _ _), ⟨rfl, fun _ _ => rfl⟩, rfl, fun _ => ⟨rfl, rfl, raised_of_eq rfl⟩, ?_, ?_, ?_, ?_,
      ?_⟩ <;> intros <;> contradiction
  · rw [if_neg hv]
    have h := linkRefreshMiss_spec (takeOutstanding d s).2 d (takeOutstanding d s).1
    obtain ⟨h1, h2, h3, h4, h5, h6, h7⟩ := h
    refine ⟨hm h1, h2, (h1 .rsw (by simp)), fun h => absurd h hv, fun _ => h3, fun _ => h4, fun _ => h5, fun _ => h6,
      fun o ho _ => ?_⟩
    rw [takeOutstanding_prior d o s ho] at h7 ⊢
    exact h7

end Sys2Proof.Laws
end

