-- ==== Sys2Proof/Laws/Outages.lean ====
section
/-! SUPPORT. What the opening, the absorbing and the search of the outage log do, said once (R120, R122, R123, R124),
and what a poll's miss leaves (R114). -/

namespace Sys2Proof.Laws

open Sys2Proof.Machine

/-! ## The number of a new record (R120) -/

theorem numberAfter_eq (i n : Nat) (h : i ≤ 64) :
    numberAfter i n = if n + i ≤ 65535 then n + i else if n ≤ 65535 then n + i - 65535 else if i = 0 then n else i := by
  induction i generalizing n with
  | zero => unfold numberAfter; split <;> simp_all
  | succ i ih =>
    unfold numberAfter
    by_cases hn : 65535 ≤ n
    · rw [if_pos hn, ih _ (by omega), if_pos (by omega), if_neg (by omega)]
      by_cases h2 : n ≤ 65535
      · rw [if_pos h2]; omega
      · rw [if_neg h2, if_neg (by omega)]; omega
    · rw [if_neg hn, ih _ (by omega)]
      split_ifs <;> omega

theorem numberAfter_inj {i j n : Nat} (hi : i ≤ 64) (hj : j ≤ 64) (h : numberAfter i n = numberAfter j n) : i = j := by
  rw [numberAfter_eq i n hi, numberAfter_eq j n hj] at h
  split_ifs at h <;> omega

theorem freeOutageNumber_spec (log : List Outage) (fuel n : Nat) :
    ∃ i ≤ fuel, freeOutageNumber log fuel n = numberAfter i n
      ∧ (∀ j < i, ∃ o ∈ log, o.number = numberAfter j n)
      ∧ (i < fuel → ∀ o ∈ log, o.number ≠ numberAfter i n) := by
  induction fuel generalizing n with
  | zero => exact ⟨0, Nat.le_refl 0, rfl, fun _ h => absurd h (Nat.not_lt_zero _), fun h => absurd h (Nat.not_lt_zero _)⟩
  | succ fuel ih =>
    unfold freeOutageNumber
    by_cases h : log.any (fun o => o.number == n) = true
    · rw [if_pos h]
      obtain ⟨i, h1, h2, h3, h4⟩ := ih (nextOutageNumber n)
      refine ⟨i + 1, by omega, h2, fun j hj => ?_, fun hi => h4 (by omega)⟩
      cases j with
      | zero => simpa [numberAfter] using h
      | succ j => exact h3 j (by omega)
    · rw [if_neg h]
      refine ⟨0, by omega, rfl, fun _ h => absurd h (Nat.not_lt_zero _), fun _ o ho he => h ?_⟩
      exact List.any_eq_true.mpr ⟨o, ho, by simpa [numberAfter] using he⟩

theorem makeRoom_eq (s : State) : makeRoom s.olz = logWithRoom s := rfl

theorem logWithRoom_length (s : State) : (logWithRoom s).log.length ≤ s.olz.log.length := by
  unfold logWithRoom
  split
  · exact Nat.le_refl _
  · split
    · exact Nat.le_refl _
    · exact List.length_filter_le _ _

@[simp] theorem logWithRoom_nextNumber (s : State) : (logWithRoom s).nextNumber = s.olz.nextNumber := by
  unfold logWithRoom
  split
  · rfl
  · split <;> rfl

@[simp] theorem logWithRoom_settle (s : State) : (logWithRoom s).settle = s.olz.settle := by
  unfold logWithRoom
  split
  · rfl
  · split <;> rfl

theorem freeOutageNumber_firstFree (s : State) :
    FirstFree s (freeOutageNumber (logWithRoom s).log 64 s.olz.nextNumber) := by
  intro hlen
  obtain ⟨i, hi, he, hbelow, hfree⟩ := freeOutageNumber_spec (logWithRoom s).log 64 s.olz.nextNumber
  refine ⟨i, hi, he, ?_, hbelow⟩
  rw [he]
  by_cases h64 : i < 64
  · exact hfree h64
  intro o ho heq
  have hall : ∀ j ≤ 64, ∃ o ∈ (logWithRoom s).log, o.number = numberAfter j s.olz.nextNumber := fun j hj => by
    by_cases hji : j < i
    · exact hbelow j hji
    · exact ⟨o, ho, by rw [heq]; congr 1; omega⟩
  have hnd : ((List.range 65).map fun j => numberAfter j s.olz.nextNumber).Nodup :=
    List.Nodup.map_on (fun a ha b hb h => numberAfter_inj (by simp at ha; omega) (by simp at hb; omega) h)
      List.nodup_range
  have hsub : ((List.range 65).map fun j => numberAfter j s.olz.nextNumber)
      ⊆ (logWithRoom s).log.map fun o => o.number := by
    intro x hx
    obtain ⟨j, hj, rfl⟩ := List.mem_map.mp hx
    obtain ⟨o, ho, h⟩ := hall j (by simp at hj; omega)
    exact List.mem_map.mpr ⟨o, ho, h⟩
  have := (List.subperm_of_subset hnd hsub).length_le
  simp at this
  have := logWithRoom_length s
  omega

/-! ## Opening, absorbing, splitting, searching -/

theorem openRecord_spec (k : OutageKind) (c : Bool) (r : Nat) (o : Word) (z : Option Word) (s : State) :
    FirstFree s (openRecord k c r o z s).2
      ∧ (openRecord k c r o z s).1.olz = recordOpened (openRecord k c r o z s).2 k c r o z s
      ∧ Raised [.outage] s (openRecord k c r o z s).1 := by
  refine ⟨?_, ?_, raised_raise _ _ _ rfl⟩
  rotate_left
  · unfold openRecord recordOpened
    rw [makeRoom_eq]
    simp [nextOutageNumber, raise]
  have := freeOutageNumber_firstFree s
  rwa [← logWithRoom_nextNumber s] at this

theorem raised_outage_trans {s t u : State} (h : Raised [.outage] s t) (g : Raised [.outage] t u) :
    Raised [.outage] s u := fun k => by
  rw [g k, h k]
  by_cases hk : k ∈ [Kind.outage] <;> simp [hk]

theorem clearRecord_raised (n : Nat) (r : CloseReason) (x : List Nat) (m : Bool) (s : State) :
    Raised [.outage] s (clearRecord n r x m s) := raised_raise _ _ _ rfl

/-- Clearing several records in turn is clearing them all (R119, R122). -/
theorem clearRecords_olz (ms : List Nat) (r : CloseReason) (x : List Nat) (b : Bool) (s : State) :
    let t := ms.foldl (fun s m => clearRecord m r x b s) s
    t.tmb = s.tmb ∧ t.olz = { s.olz with
      log := s.olz.log.map fun o => if o.number ∈ ms then o.endedAs r x b s else o
      settle := ms.foldl (fun l k => insertNumber k l) s.olz.settle } := by
  induction ms generalizing s with
  | nil => simp
  | cons m ms ih =>
    obtain ⟨h1, h2⟩ := ih (clearRecord m r x b s)
    refine ⟨h1, ?_⟩
    rw [List.foldl_cons, h2]
    have hs : (clearRecord m r x b s).olz = { s.olz with
        log := s.olz.log.map fun o => if o.number = m then o.endedAs r x b s else o
        settle := insertNumber m s.olz.settle } := rfl
    have he : ∀ o : Outage, o.endedAs r x b (clearRecord m r x b s) = o.endedAs r x b s := fun _ => rfl
    rw [hs]
    simp only [List.foldl_cons, List.map_map, he]
    congr 1
    refine List.map_congr_left fun o _ => ?_
    by_cases hm : o.number = m <;> by_cases hn : o.number ∈ ms <;> simp [hm, hn, Outage.endedAs]

theorem clearRecords_raised (ms : List Nat) (r : CloseReason) (x : List Nat) (b : Bool) (s t : State)
    (h : Raised [.outage] s t) : Raised [.outage] s (ms.foldl (fun s m => clearRecord m r x b s) t) := by
  induction ms generalizing t with
  | nil => exact h
  | cons m ms ih => exact ih _ (raised_outage_trans h (clearRecord_raised m r x b t))

theorem hasRoom_iff (s : State) : s.hasRoom = true ↔ LogHasRoom s := by
  unfold State.hasRoom LogHasRoom
  cases s.olz.closedOrder <;> simp

theorem explained_iff (s : State) (u : Nat) : s.explained u = true ↔ Rooted s u := by
  simp [State.explained, Rooted, State.openAt, List.find?_isSome]

/-- Units lie as the plant says, whatever becomes of the log. -/
theorem below_of_ppl {s t : State} (h : t.ppl = s.ppl) (a b : Nat) : t.below a b = s.below a b := by
  have hp : ∀ n u, pathFrom t n u = pathFrom s n u := by
    intro n
    induction n with
    | zero => exact fun u => rfl
    | succ n ih =>
      intro u
      have hu : t.unit u = s.unit u := by unfold State.unit; rw [h]
      unfold pathFrom
      rw [hu]
      cases (s.unit u).cfg.parent <;> simp [ih]
  unfold State.below State.atOrBelow State.path
  rw [hp]

/-- OLZ's record of a unit gone SILENT, and the records it absorbs (R122). -/
theorem openSilent_spec (u : Nat) (s : State) : SilentOpened u s (openSilent u s) := by
  obtain ⟨h1, h2, h3⟩ := openRecord_spec .silent true u (((s.unit u).missingSince).getD s.tmb.run)
    (stationOf s (((s.unit u).missingSince).getD s.tmb.run)) s
  have hz := openRecord_only .silent true u (((s.unit u).missingSince).getD s.tmb.run)
    (stationOf s (((s.unit u).missingSince).getD s.tmb.run)) s
  refine ⟨_, h1, openSilent_only u s, ?_, ?_⟩
  · unfold openSilent
    exact clearRecords_raised _ _ _ _ _ _ h3
  · unfold openSilent
    dsimp only
    obtain ⟨-, h⟩ := clearRecords_olz
      (((openRecord .silent true u (((s.unit u).missingSince).getD s.tmb.run)
        (stationOf s (((s.unit u).missingSince).getD s.tmb.run)) s).1.olz.log.filter fun o =>
          o.state == .opened && o.kind == .silent
            && (openRecord .silent true u (((s.unit u).missingSince).getD s.tmb.run)
              (stationOf s (((s.unit u).missingSince).getD s.tmb.run)) s).1.below o.root u).map fun o => o.number)
      .absorbed [(openRecord .silent true u (((s.unit u).missingSince).getD s.tmb.run)
        (stationOf s (((s.unit u).missingSince).getD s.tmb.run)) s).2] false
      (openRecord .silent true u (((s.unit u).missingSince).getD s.tmb.run)
        (stationOf s (((s.unit u).missingSince).getD s.tmb.run)) s).1
    rw [h]
    have hb := fun a => below_of_ppl (hz .ppl (by decide)) a u
    have he : ∀ (o : Outage) (x : List Nat), o.endedAs .absorbed x false
        (openRecord .silent true u (((s.unit u).missingSince).getD s.tmb.run)
          (stationOf s (((s.unit u).missingSince).getD s.tmb.run)) s).1 = o.endedAs .absorbed x false s := fun _ _ => rfl
    simp only [hb, he, h2]
    rfl

/-- PPL has written a unit's unlogged flag (R115). -/
theorem setUnlogged_spec (b : Bool) (u : Nat) (s : State) : UnloggedWritten u b s (setUnlogged b u s) :=
  ⟨rfl, fun v => by
    by_cases h : v = u
    · subst h; simp [setUnlogged]
    · simp [setUnlogged, h]⟩

/-- The records of a split (R124). -/
theorem openSplits_spec (o : Outage) (us : List Nat) (s : State) :
    SplitsOpened o us (openSplits o us s).2.1 s (openSplits o us s).1 := by
  induction us generalizing s with
  | nil => exact ⟨rfl, rfl⟩
  | cons u us ih =>
    unfold openSplits
    by_cases hr : s.hasRoom = true
    · obtain ⟨h1, h2, h3⟩ := openRecord_spec .silent true u o.openRun o.openStation s
      rw [if_pos hr]
      refine ⟨(hasRoom_iff s).mp hr, setUnlogged false u (openRecord .silent true u o.openRun o.openStation s).1, h1, ?_,
        h2, ?_, ?_, ih _⟩
      · exact ((openRecord_only _ _ _ _ _ s).mono (by simp)).trans ((setUnlogged_only _ _ _).mono (by simp))
      · exact fun k => h3 k
      · have := setUnlogged_spec false u (openRecord .silent true u o.openRun o.openStation s).1
        exact this
    · rw [if_neg hr]
      exact ⟨fun h => hr ((hasRoom_iff s).mpr h), rfl⟩

/-- The search for unlogged units (R123). -/
theorem searchUnlogged_spec (us : List Nat) (s : State) :
    Searched us s (us.foldl (fun s u =>
      if (s.unit u).state = .silent ∧ (s.unit u).unlogged ∧ !s.explained u ∧ s.hasRoom
        then setUnlogged false u (openSilent u s) else s) s) := by
  induction us generalizing s with
  | nil => rfl
  | cons u us ih =>
    refine ⟨_, fun h => ⟨openSilent u s, openSilent_spec u s, ?_, ?_⟩, fun h => ?_, ih _⟩
    · have hc : (s.unit u).state = .silent ∧ (s.unit u).unlogged = true ∧ (!s.explained u) = true ∧ s.hasRoom = true :=
        ⟨h.1, h.2.1, by simpa [← explained_iff] using h.2.2.1, (hasRoom_iff s).mpr h.2.2.2⟩
      dsimp only
      rw [if_pos hc]
      exact setUnlogged_only _ _ _
    · have hc : (s.unit u).state = .silent ∧ (s.unit u).unlogged = true ∧ (!s.explained u) = true ∧ s.hasRoom = true :=
        ⟨h.1, h.2.1, by simpa [← explained_iff] using h.2.2.1, (hasRoom_iff s).mpr h.2.2.2⟩
      dsimp only
      rw [if_pos hc]
      exact setUnlogged_spec _ _ _
    · dsimp only
      rw [if_neg]
      intro hc
      exact h ⟨hc.1, hc.2.1, by simpa [← explained_iff] using hc.2.2.1, (hasRoom_iff s).mp hc.2.2.2⟩

/-! ## The miss of a poll's window (R114) -/

theorem endPoll_eq (p : Poll) (s : State) : endPoll p s = pollOver p s := by
  unfold endPoll pollOver removePoll pollEnded
  split <;> rfl

theorem owns_iff (p : Poll) (w : Window) :
    p.owns w = true ↔ p.windowOpen = true ∧ p.unit = w.owner ∧ p.address = w.address := by
  simp [Poll.owns, and_assoc]

/-- PPL takes the miss of a POLL window (R114, R116, R117). -/
theorem pollMiss_spec (w : Window) (s : State) : PollMissed w s (pollMiss w s) := by
  unfold PollMissed
  dsimp only
  refine ⟨fun h => ?_, fun p hp ho => ?_⟩
  · unfold pollMiss
    cases hp : s.ppl.poll with
    | none => rfl
    | some p =>
      have : ¬p.owns w = true := fun hw => h p hp ((owns_iff p w).mp hw)
      simp [this]
  have hw := (owns_iff p w).mpr ho
  unfold pollMiss
  rw [hp]
  simp only [hw, Bool.not_true, Bool.false_eq_true, if_false]
  refine ⟨fun h1 h2 h3 => ?_, fun h1 h2 => ?_, fun h1 => ?_⟩
  · rw [if_neg (by omega), if_neg (by simp [h2, h3])]
    rfl
  · rw [if_neg (by omega), if_pos (by rcases h2 with h | h <;> simp [h]), endPoll_eq]
  · rw [if_pos h1, endPoll_eq]
    have hu : ∀ v, (s.setUnit p.unit ((s.unit p.unit).missedCycle s.params.silentCycles p.firstRun)).unit v
        = if v = p.unit then (s.unit p.unit).missedCycle s.params.silentCycles p.firstRun else s.unit v := fun v => by
      by_cases h : v = p.unit
      · subst h; simp
      · simp [h]
    unfold unitMissed
    dsimp only
    by_cases he : (s.unit p.unit).state = .silent ∨ s.params.silentCycles ≤ min 15 ((s.unit p.unit).missed + 1)
    · by_cases hs : (s.unit p.unit).state = .silent
      · refine ⟨_, (setUnit_only _ _ s).mono (by simp), by rw [← hp]; rfl, hu, fun h => absurd hs h.2,
          fun _ => ⟨raised_of_eq rfl, ?_⟩⟩
        rw [if_neg (by simp [hs])]
      · refine ⟨_, ((setUnit_only p.unit _ s).mono (by simp)).trans ((raise_only .plant _).mono (by simp)),
          by rw [← hp]; rfl, hu,
          fun _ => ⟨raised_raise .plant _ _ rfl, ?_⟩, fun h => absurd ⟨he, hs⟩ h⟩
        have hsilent : ((s.unit p.unit).missedCycle s.params.silentCycles p.firstRun).state = .silent := by
          unfold PlantUnit.missedCycle
          exact if_pos he
        rw [if_pos ⟨hsilent, hs⟩]
    · refine ⟨_, (setUnit_only _ _ s).mono (by simp), by rw [← hp]; rfl, hu, fun h => absurd h.1 he,
        fun _ => ⟨raised_of_eq rfl, ?_⟩⟩
      rw [if_neg]
      rintro ⟨h, -⟩
      unfold PlantUnit.missedCycle at h
      simp only [he, if_false] at h
      exact absurd h (by decide)

end Sys2Proof.Laws
end

