-- ==== Sys2Proof/Laws/PerInstr.lean ====
section
/-! SUPPORT. The operands of every command: which terms of each constructor are commands of the table. -/

namespace Sys2Proof.Laws.Operands

/-- The operands of a command, where they can be ill formed (`Instr.wellFormed`): a load whose header is not 14 bytes,
a received line that holds an LF, an answered read whose counts are not 48. Every other operand is a command's. -/
def Statement (i : Instr) : Prop :=
  i.wellFormed = false ↔
    (∃ r, i = .loadEnd r ∧ r.header.length ≠ 14) ∨ (∃ cs f, i = .lineReceived cs f ∧ lineFeed ∈ cs)
      ∨ (∃ cs, i = .activityReadAnswer cs ∧ cs.length ≠ 48)

theorem of_every (i : Instr) : Statement i := by
  cases i <;> simp [Statement, Instr.wellFormed, FlashRead.wellFormed]

theorem powerOn : Statement (.powerOn) := of_every _
theorem loadEnd (read : FlashRead) : Statement (.loadEnd read) := of_every _
theorem lineReceived (chars : List Byte) (framing : Bool) : Statement (.lineReceived chars framing) := of_every _
theorem lineOverflow : Statement (.lineOverflow) := of_every _
theorem lineSent : Statement (.lineSent) := of_every _
theorem deferredReplyAppend : Statement (.deferredReplyAppend) := of_every _
theorem noticeAppend : Statement (.noticeAppend) := of_every _
theorem unknownVerb (lane : Lane) : Statement (.unknownVerb lane) := of_every _
theorem slotSet (lane : Lane) : Statement (.slotSet lane) := of_every _
theorem slotRead (lane : Lane) : Statement (.slotRead lane) := of_every _
theorem slotRestore (lane : Lane) : Statement (.slotRestore lane) := of_every _
theorem eventAdd (lane : Lane) : Statement (.eventAdd lane) := of_every _
theorem eventCancel (lane : Lane) : Statement (.eventCancel lane) := of_every _
theorem eventDelete (lane : Lane) : Statement (.eventDelete lane) := of_every _
theorem eventRead (lane : Lane) : Statement (.eventRead lane) := of_every _
theorem eventList (lane : Lane) : Statement (.eventList lane) := of_every _
theorem emergencyOn (lane : Lane) : Statement (.emergencyOn lane) := of_every _
theorem emergencyOff (lane : Lane) : Statement (.emergencyOff lane) := of_every _
theorem carouselMode (lane : Lane) : Statement (.carouselMode lane) := of_every _
theorem carouselText (lane : Lane) : Statement (.carouselText lane) := of_every _
theorem carouselEnable (lane : Lane) : Statement (.carouselEnable lane) := of_every _
theorem carouselRead (lane : Lane) : Statement (.carouselRead lane) := of_every _
theorem sourceSet (lane : Lane) : Statement (.sourceSet lane) := of_every _
theorem sourceRead (lane : Lane) : Statement (.sourceRead lane) := of_every _
theorem sourceList (lane : Lane) : Statement (.sourceList lane) := of_every _
theorem matrixStatus (lane : Lane) : Statement (.matrixStatus lane) := of_every _
theorem strayRead (lane : Lane) : Statement (.strayRead lane) := of_every _
theorem strayRearm (lane : Lane) : Statement (.strayRearm lane) := of_every _
theorem carrierStatus (lane : Lane) : Statement (.carrierStatus lane) := of_every _
theorem protectSet (lane : Lane) : Statement (.protectSet lane) := of_every _
theorem protectClear (lane : Lane) : Statement (.protectClear lane) := of_every _
theorem protectRead (lane : Lane) : Statement (.protectRead lane) := of_every _
theorem dropConnect (lane : Lane) : Statement (.dropConnect lane) := of_every _
theorem dropTiers (lane : Lane) : Statement (.dropTiers lane) := of_every _
theorem dropSuspend (lane : Lane) : Statement (.dropSuspend lane) := of_every _
theorem dropResume (lane : Lane) : Statement (.dropResume lane) := of_every _
theorem dropDisconnect (lane : Lane) : Statement (.dropDisconnect lane) := of_every _
theorem dropReassign (lane : Lane) : Statement (.dropReassign lane) := of_every _
theorem dropSend (lane : Lane) : Statement (.dropSend lane) := of_every _
theorem dropRead (lane : Lane) : Statement (.dropRead lane) := of_every _
theorem dropList (lane : Lane) : Statement (.dropList lane) := of_every _
theorem authStatus (lane : Lane) : Statement (.authStatus lane) := of_every _
theorem refreshStatus (lane : Lane) : Statement (.refreshStatus lane) := of_every _
theorem intakeMode (lane : Lane) : Statement (.intakeMode lane) := of_every _
theorem intakeStatus (lane : Lane) : Statement (.intakeStatus lane) := of_every _
theorem unitSet (lane : Lane) : Statement (.unitSet lane) := of_every _
theorem unitService (lane : Lane) : Statement (.unitService lane) := of_every _
theorem unitRead (lane : Lane) : Statement (.unitRead lane) := of_every _
theorem unitList (lane : Lane) : Statement (.unitList lane) := of_every _
theorem pollStatus (lane : Lane) : Statement (.pollStatus lane) := of_every _
theorem outageDeclare (lane : Lane) : Statement (.outageDeclare lane) := of_every _
theorem outageEnd (lane : Lane) : Statement (.outageEnd lane) := of_every _
theorem outageRead (lane : Lane) : Statement (.outageRead lane) := of_every _
theorem outageList (lane : Lane) : Statement (.outageList lane) := of_every _
theorem journalRead (lane : Lane) : Statement (.journalRead lane) := of_every _
theorem journalRelease (lane : Lane) : Statement (.journalRelease lane) := of_every _
theorem journalStatus (lane : Lane) : Statement (.journalStatus lane) := of_every _
theorem periodClose (lane : Lane) : Statement (.periodClose lane) := of_every _
theorem timeSet (lane : Lane) : Statement (.timeSet lane) := of_every _
theorem timeStatus (lane : Lane) : Statement (.timeStatus lane) := of_every _
theorem attnRead (lane : Lane) : Statement (.attnRead lane) := of_every _
theorem attnClear (lane : Lane) : Statement (.attnClear lane) := of_every _
theorem attnMask (lane : Lane) : Statement (.attnMask lane) := of_every _
theorem attnForce (lane : Lane) : Statement (.attnForce lane) := of_every _
theorem identify (lane : Lane) : Statement (.identify lane) := of_every _
theorem identifyCompat (lane : Lane) : Statement (.identifyCompat lane) := of_every _
theorem status (lane : Lane) : Statement (.status lane) := of_every _
theorem paramSet (lane : Lane) : Statement (.paramSet lane) := of_every _
theorem paramRead (lane : Lane) : Statement (.paramRead lane) := of_every _
theorem run (lane : Lane) : Statement (.run lane) := of_every _
theorem stop (lane : Lane) : Statement (.stop lane) := of_every _
theorem settingsSave (lane : Lane) : Statement (.settingsSave lane) := of_every _
theorem settingsClear (lane : Lane) : Statement (.settingsClear lane) := of_every _
theorem settingsStatus (lane : Lane) : Statement (.settingsStatus lane) := of_every _
theorem reset (lane : Lane) : Statement (.reset lane) := of_every _
theorem saveOperationEnd (more : Bool) : Statement (.saveOperationEnd more) := of_every _
theorem saveOperationTimeout : Statement (.saveOperationTimeout) := of_every _
theorem abandonEraseEnd : Statement (.abandonEraseEnd) := of_every _
theorem clearEraseEnd : Statement (.clearEraseEnd) := of_every _
theorem clearEraseTimeout : Statement (.clearEraseTimeout) := of_every _
theorem slotBoundary : Statement (.slotBoundary) := of_every _
theorem secondAdvance : Statement (.secondAdvance) := of_every _
theorem refreshCounterExpiry : Statement (.refreshCounterExpiry) := of_every _
theorem emergencyExpiry : Statement (.emergencyExpiry) := of_every _
theorem alertDue : Statement (.alertDue) := of_every _
theorem pollCycleExpiry : Statement (.pollCycleExpiry) := of_every _
theorem pollBegin : Statement (.pollBegin) := of_every _
theorem pollCycleEnd : Statement (.pollCycleEnd) := of_every _
theorem monitorSample : Statement (.monitorSample) := of_every _
theorem referenceReturn : Statement (.referenceReturn) := of_every _
theorem startupWindowClose : Statement (.startupWindowClose) := of_every _
theorem upstreamFrame (bytes : List Byte) : Statement (.upstreamFrame bytes) := of_every _
theorem sampleDue : Statement (.sampleDue) := of_every _
theorem matrixIssue : Statement (.matrixIssue) := of_every _
theorem activityReadAnswer (counts : List Byte) : Statement (.activityReadAnswer counts) := of_every _
theorem activityReadTimeout : Statement (.activityReadTimeout) := of_every _
theorem switchAnswered : Statement (.switchAnswered) := of_every _
theorem switchTimeout : Statement (.switchTimeout) := of_every _
theorem lateMatrixAnswer : Statement (.lateMatrixAnswer) := of_every _
theorem waveVisit : Statement (.waveVisit) := of_every _
theorem waveComplete : Statement (.waveComplete) := of_every _
theorem settlePassStart : Statement (.settlePassStart) := of_every _
theorem settleVisit : Statement (.settleVisit) := of_every _
theorem settlePassEnd : Statement (.settlePassEnd) := of_every _
theorem drainVisit : Statement (.drainVisit) := of_every _
theorem drainCircuitEnd : Statement (.drainCircuitEnd) := of_every _
theorem referenceEdge : Statement (.referenceEdge) := of_every _

end Sys2Proof.Laws.Operands
end

