-- ==== Sys2Proof/Tests/Slice0.lean ====
section
/-! SUPPORT. The author's own tests: the operand checks, the spec's worked bytes, what each verb answers on a small
state, one step of each event on a small state, and for every statement of Certificates/Slice0/Obligations.lean a
state that meets its hypotheses (`witness_<name>`). -/

set_option Elab.async false

namespace Sys2Proof.Tests

open Sys2Proof.Machine

/-! ## Small states -/

/-- The part in STANDBY, everything else as at power-on. -/
def standby : State := State.reset.setRunState .standby

/-- A lane's inbox holds one line, with tag 37, about to be dispatched. -/
def asks (l : Lane) (line : String) (s : State) : State :=
  { s with ofp := s.ofp.setInbox l [⟨0x37#8, ascii (" " ++ line)⟩] }

/-- The characters of the last reply in the output queue after a command. -/
def said (o : Outcome) : Option Text :=
  (nextOf o).bind fun t => match t.ofp.outQ.getLast? with
    | some (.reply _ _ r) => some (replyChars r)
    | some (.notice _) => none
    | none => none

/-- Each line, asked of the state, is answered as given. -/
def replies (v : Verb) (l : Lane) (s : State) (qs : List (String × String)) : Bool :=
  qs.all fun q => decide (said (exec (v.command l) (asks l q.1 s)) = some (ascii (" " ++ q.2)))

/-- An enabled slot of a tier, on a source. -/
def onAir (display tier source : Nat) : Slot :=
  ⟨⟨true, display, ascii "A", tier, source, none, false, false⟩, source, .c, false, some source, false⟩

/-- An ACTIVE drop with an address, fed from a unit. -/
def served (a : Addr) (feed : Nat) (link : Link) : Drop :=
  { Drop.blank with service := .active, address := some a, account := some 9, tiers := 4, feed := some feed,
                    link := some link, lastEnd := some 0 }

/-- A unit with a transponder, in a state. -/
def amp (kind : UnitKind) (parent : Option Nat) (a : Addr) (st : UnitState) : PlantUnit :=
  ⟨⟨kind, parent, some a, true⟩, st, 0, none, false, none, false, false⟩

/-- A small system: slots 1, 2 and 80; sources 1 and 47; events 255 and 1; units 0 and 511 under it; drops 0, 5 and
2047. Station time is 50, run seconds 1000. -/
def office : State :=
  let s := { standby with tmb := { standby.tmb with station := 50, timeSet := true, uncertain := false, run := 1000 } }
  let s := (s.setSlot 1 (onAir 2 0 1)).setSlot 2 { onAir 3 2 4 with latch := true }
  let s := s.setSlot 80 { Slot.blank 80 with cfg := { SlotCfg.blank 80 with display := 999 } }
  let s := (s.setSource 1 ⟨⟨.satellite, true⟩, .present, 0, 0⟩).setSource 47 ⟨⟨.alert, false⟩, .present, 0, 0⟩
  let s := s.setEvent 0 (some ⟨⟨255, 1, 1, 100, 200, 300, 399, false⟩, .scheduled, false, false⟩)
  let s := s.setEvent 31 (some ⟨⟨1, 2, 1, 10, 20, 30, 0, false⟩, .ended, true, false⟩)
  let s := (s.setUnit 0 (amp .trunkAmp none 0x100 .answering)).setUnit 511 (amp .bridger (some 0) 0x200 .silent)
  let s := (s.setDrop 0 (served 0x10 511 .settled)).setDrop 2047 { served 0x20 0 .unconfirmed with service := .suspended }
  s.setDrop 5 { Drop.blank with account := some 9, pending := 3 }

/-! ## Operand checks (WellFormed): each check refuses an ill-formed term -/

theorem test_load_header_of_13_is_ill_formed :
    (Instr.loadEnd ⟨List.replicate 13 0#8, [], none⟩).wellFormed = false
      ∧ (Instr.loadEnd ⟨List.replicate 14 0#8, [], none⟩).wellFormed = true := by decide

theorem test_line_with_LF_is_ill_formed :
    (Instr.lineReceived [0x51#8, 0x0A#8] false).wellFormed = false
      ∧ (Instr.lineReceived [0x51#8, 0x0D#8] false).wellFormed = true := by decide

theorem test_counts_other_than_48_are_ill_formed :
    (Instr.activityReadAnswer (List.replicate 47 0#8)).wellFormed = false
      ∧ (Instr.activityReadAnswer (List.replicate 48 0#8)).wellFormed = true := by decide

theorem test_ill_formed_is_refused :
    exec (.activityReadAnswer []) standby = .refused .illFormed := rfl

/-- The table gives no row bits: no word spells a command. -/
theorem test_no_word_spells_a_command : decodeTableWord 16 0xABCD = none ∧ State.reset.withFetchWord 16 0 = State.reset :=
  ⟨rfl, rfl⟩

/-! ## The spec's worked bytes -/

/-- 10.1, worked example: the request `P07 ATTN.READ *64`. -/
theorem test_request_check :
    checkedBody (ascii "P07 ATTN.READ *64") = some (ascii "P07 ATTN.READ") ∧ checkedBody (ascii "P07 ATTN.READ *65") = none
      ∧ readHead (ascii "P07 ATTN.READ") = some (.p, 0x07#8, ascii " ATTN.READ") := by decide +kernel

/-- 10.1, worked example: the reply `RP07 OK PLANT,OUTAGE - *4A` and the notice `N ATTN OUTAGE *6C`. -/
theorem test_reply_and_notice_characters :
    OutLine.chars (.reply .p 0x07#8 (.ok [fKinds [.plant, .outage], fKinds []]))
        = ascii "RP07 OK PLANT,OUTAGE - *4A" ++ [0x0D#8, 0x0A#8]
      ∧ OutLine.chars (.notice [.outage]) = ascii "N ATTN OUTAGE *6C" ++ [0x0D#8, 0x0A#8] := by decide +kernel

/-- R56: the carrier check of the nine digits, its published check value. -/
theorem test_carrier_check : crc16 (ascii "123456789") = 0x29B1#16 := by decide +kernel

/-- R177 with log 40: the image check of the nine digits, its published check value. -/
theorem test_image_check : crc32 (ascii "123456789") = 0xCBF43926#32 := by decide +kernel

/-- 3.7, worked example: the authorization body of drop 311. -/
theorem test_authorization_body :
    authorizationBody (fun k => decide (k ≤ 30) || k == 35) 14400 [40]
      = [0xFF#8, 0xFF#8, 0xFF#8, 0x3F#8, 0x04#8, 0#8, 0#8, 0#8, 0#8, 0#8, 0x38#8, 0x40#8, 1#8, 0x28#8] := by
  decide +kernel

/-! ## What each verb answers -/

/-- `office` with one OPEN DECLARED record, 65535, at unit 511, that drop 0 carries. -/
def dark : State :=
  { (office.setDrop 0 { office.drop 0 with outage := some 65535, accrual := some 900 }) with
    olz := { office.olz with
      log := [⟨65535, .declared, true, 511, .opened, none, [], false, 900, none, none, 1, 1⟩] } }

/-- `office` with three records whose numbers pass 4,294,967,295, the last period number open, and a drain running. -/
def booked : State :=
  { office with
    bjn := ⟨[⟨4294967295, 40, false, .period 3⟩, ⟨0, 41, true, .resume 7 (some 9)⟩,
        ⟨1, 42, false, .tiers 7 (some 9) 4 0x8004⟩], 2, 4294967295, 2047, some 9⟩ }

theorem test_line_up_verbs :
    replies .slotSet .q office
        [("SLOT.SET 1 1 2 \"B\" 15 47 - 0 1", "OK"), ("SLOT.SET 80 1 999 \"12345678\" 0 0 47 1 0", "OK"),
          ("SLOT.SET 81 1 9 \"B\" 0 0 - 0 0", "ERR ARGS"), ("SLOT.SET 0 1 9 \"B\" 0 0 - 0 0", "ERR ARGS"),
          ("SLOT.SET 2 1 9 \"123456789\" 0 0 - 0 0", "ERR ARGS"),
          ("SLOT.SET 2 1 2 \"B\" 0 0 - 0 0", "ERR DUPLICATE"), ("SLOT.SET 1 0 2 \"B\" 0 0 - 0 0", "ERR INUSE"),
          ("SLOT.SET 2 0 2 \"A\" 2 4 - 0 0", "OK")]
      ∧ replies .slotSet .q (office.setRunState .saving)
        [("SLOT.SET 1", "ERR BUSY")]
      ∧ replies .slotRead .q office
        [("SLOT.READ 1", "OK 1 2 \"A\" 0 1 - 0 0 1 C 0 1 0"),
          ("SLOT.READ 80", "OK 0 999 \"\" 0 0 - 0 0 0 E 0 U 0"), ("SLOT.READ 81", "ERR ARGS"),
          ("SLOT.READ 0", "ERR ARGS")]
      ∧ replies .slotRestore .q office
        [("SLOT.RESTORE 2", "OK"), ("SLOT.RESTORE 1", "OK"), ("SLOT.RESTORE 81", "ERR ARGS")]
      ∧ replies .eventAdd .q office
        [("EVENT.ADD 2 1 47 300 300 400 65535", "OK 1"), ("EVENT.ADD 2 1 47 0 299 400 0", "ERR OVERLAP"),
          ("EVENT.ADD 255 2 0 60 60 61 1", "ERR DUPLICATE"), ("EVENT.ADD 2 80 0 60 60 61 1", "ERR STATE"),
          ("EVENT.ADD 2 2 0 10 20 50 1", "ERR RANGE"), ("EVENT.ADD 2 2 0 61 60 62 1", "ERR ARGS"),
          ("EVENT.ADD 0 2 0 60 60 62 1", "ERR ARGS")]
      ∧ replies .eventCancel .q office
        [("EVENT.CANCEL 255", "OK"), ("EVENT.CANCEL 1", "ERR STATE"), ("EVENT.CANCEL 2", "ERR ARGS")]
      ∧ replies .eventDelete .q office
        [("EVENT.DELETE 1", "OK"), ("EVENT.DELETE 255", "ERR INUSE"), ("EVENT.DELETE 7", "ERR ARGS")]
      ∧ replies .eventRead .q office
        [("EVENT.READ 255", "OK 0 255 1 1 100 200 300 399 0 SCHEDULED 0"),
          ("EVENT.READ 1", "OK 31 1 2 1 10 20 30 0 0 ENDED 1"), ("EVENT.READ 9", "ERR ARGS")]
      ∧ replies .eventList .q office
        [("EVENT.LIST", "OK 255S 1E+"), ("EVENT.LIST 1", "ERR ARGS")] := by
  decide +kernel

theorem test_broadcast_verbs :
    replies .emergencyOn .p office
        [("EMERGENCY.ON 47 3600 1 255", "OK"), ("EMERGENCY.ON 47 3601 1 0", "ERR ARGS"),
          ("EMERGENCY.ON 1 1 1 0", "ERR ARGS"), ("EMERGENCY.ON 47 1 80 0", "ERR STATE")]
      ∧ replies .emergencyOff .p (office.setOverride ⟨true, 47, 1, 9, 1010, 1005, true⟩)
        [("EMERGENCY.OFF", "OK"), ("EMERGENCY.OFF 1", "ERR ARGS")]
      ∧ replies .emergencyOff .p office
        [("EMERGENCY.OFF", "ERR STATE")]
      ∧ replies .carouselMode .q office
        [("CAROUSEL.MODE BURST 2", "OK"), ("CAROUSEL.MODE HOLD 15", "OK"),
          ("CAROUSEL.MODE HOLD 16", "ERR ARGS"), ("CAROUSEL.MODE STOP", "OK"), ("CAROUSEL.MODE", "ERR ARGS")]
      ∧ replies .carouselText .q office
        [("CAROUSEL.TEXT \"HELLO THERE\"", "OK"), ("CAROUSEL.TEXT HELLO", "ERR ARGS")]
      ∧ replies .carouselEnable .q office
        [("CAROUSEL.ENABLE 15 0", "OK"), ("CAROUSEL.ENABLE 16 0", "ERR ARGS")]
      ∧ replies .carouselRead .q office
        [("CAROUSEL.READ", "OK CYCLE 0 0 1111111111111111 \"\"")] := by
  decide +kernel

theorem test_source_matrix_and_carrier_verbs :
    replies .sourceSet .q office
        [("SOURCE.SET 0 SLATE 0", "OK"), ("SOURCE.SET 0 SLATE 1", "ERR ARGS"),
          ("SOURCE.SET 47 SLATE 0", "ERR ARGS"), ("SOURCE.SET 47 OFFAIR 1", "OK"),
          ("SOURCE.SET 48 OFFAIR 1", "ERR ARGS")]
      ∧ replies .sourceRead .q office
        [("SOURCE.READ 1", "OK SATELLITE 1 PRESENT 0 0"), ("SOURCE.READ 47", "OK ALERT 0 PRESENT 0 0"),
          ("SOURCE.READ 48", "ERR ARGS")]
      ∧ replies .sourceList .q office
        [("SOURCE.LIST", "OK -P----------------------------------------------")]
      ∧ replies .matrixStatus .q { office with mxp := ⟨[⟨1, 4⟩], some (.order 2 3 1), true, .order⟩ }
        [("MATRIX.STATUS", "OK 1 2 3 1 - 1 O -")]
      ∧ replies .strayRead .q { office with urx := ⟨some ⟨.foreign, 0xABC, 0x7F, none, 5⟩⟩ }
        [("STRAY.READ", "OK CAPTURED FOREIGN 000ABC 7F - 5")]
      ∧ replies .strayRead .q office
        [("STRAY.READ", "OK ARMED")]
      ∧ replies .strayRearm .q office
        [("STRAY.REARM", "OK"), ("STRAY.REARM 1", "ERR ARGS")]
      ∧ replies .carrierStatus .q { office with csc := ⟨[⟨0x20, .auth, 2047, 7, 10⟩], 3, some 8, ⟨false, true, none, some 0x200, none⟩, some .poll, none⟩ }
        [("CARRIER.STATUS", "OK 000020 AUTH 2047 3 3 CP P")] := by
  decide +kernel

theorem test_drop_verbs :
    replies .protectSet .q office
        [("PROTECT.SET 7", "OK"), ("PROTECT.SET 8", "ERR ARGS")]
      ∧ replies .protectClear .m office
        [("PROTECT.CLEAR 0", "OK"), ("PROTECT.CLEAR 8", "ERR ARGS")]
      ∧ replies .protectClear .q office
        [("PROTECT.CLEAR 0", "ERR LANE")]
      ∧ replies .protectRead .q (setGuard true 7 office)
        [("PROTECT.READ", "OK 00000001")]
      ∧ replies .dropConnect .q office
        [("DROP.CONNECT 2046 00ABCD 4294967295 511 0,15", "OK ACTIVE QUEUED"),
          ("DROP.CONNECT 2048 00ABCD 1 0 -", "ERR ARGS"), ("DROP.CONNECT 9 FFFFFF 1 0 -", "ERR ARGS"),
          ("DROP.CONNECT 0 00ABCD 1 0 -", "ERR STATE"), ("DROP.CONNECT 5 00ABCD 1 0 -", "ERR PENDING"),
          ("DROP.CONNECT 9 00ABCD 1 1 -", "ERR ARGS"), ("DROP.CONNECT 9 000100 1 0 -", "ERR DUPLICATE"),
          ("DROP.CONNECT 9 000020 1 0 -", "ERR DUPLICATE")]
      ∧ replies .dropTiers .q office
        [("DROP.TIERS 0 1,15", "OK ACTIVE QUEUED"), ("DROP.TIERS 2047 -", "OK SUSPENDED UNCONFIRMED"),
          ("DROP.TIERS 5 1", "ERR STATE"), ("DROP.TIERS 0 16", "ERR ARGS")]
      ∧ replies .dropSuspend .q office
        [("DROP.SUSPEND 0", "OK SUSPENDED QUEUED"), ("DROP.SUSPEND 2047", "ERR STATE"),
          ("DROP.SUSPEND 2048", "ERR ARGS")]
      ∧ replies .dropSuspend .q (setGuard true 0 office)
        [("DROP.SUSPEND 0", "ERR PROTECTED")]
      ∧ replies .dropResume .q office
        [("DROP.RESUME 2047", "OK ACTIVE QUEUED"), ("DROP.RESUME 0", "ERR STATE")]
      ∧ replies .dropDisconnect .q office
        [("DROP.DISCONNECT 0", "OK CLOSING QUEUED"), ("DROP.DISCONNECT 5", "ERR STATE")]
      ∧ replies .dropReassign .q office
        [("DROP.REASSIGN 0 0", "OK ACTIVE SETTLED"), ("DROP.REASSIGN 0 1", "ERR ARGS"),
          ("DROP.REASSIGN 5 0", "ERR STATE")]
      ∧ replies .dropSend .q office
        [("DROP.SEND 2047", "OK SUSPENDED QUEUED"), ("DROP.SEND 5", "ERR STATE")]
      ∧ replies .dropRead .q office
        [("DROP.READ 0", "OK ACTIVE 000010 9 2 - 511 SETTLED 0 0 0 0 - - - 0 0 0"),
          ("DROP.READ 5", "OK VACANT - 9 - - - - 0 0 0 0 - - - - 3 0"), ("DROP.READ 2048", "ERR ARGS")]
      ∧ replies .dropList .q office
        [("DROP.LIST ACTIVE 0", "OK 0 -"), ("DROP.LIST UNCONFIRMED 2047", "OK 2047 -"),
          ("DROP.LIST VACANT 2032", "OK 2032 2033 2034 2035 2036 2037 2038 2039 2040 2041 2042 2043 2044 2045 2046 -"),
          ("DROP.LIST VACANT 2031", "OK 2031 2032 2033 2034 2035 2036 2037 2038 2039 2040 2041 2042 2043 2044 2045 2046 2047"),
          ("DROP.LIST GONE 0", "ERR ARGS")]
      ∧ replies .authStatus .q { office with aen := ⟨[⟨7, true⟩, ⟨8, false⟩], [⟨.tiers 5, true, 9⟩, ⟨.all, false, 0⟩], true, false⟩ }
        [("AUTH.STATUS", "OK 2 1 7+ 8 T0,2 R 9 A W P")]
      ∧ replies .refreshStatus .q { office with rsw := ⟨3, true, 2047, [⟨4, .settled⟩], false⟩ }
        [("REFRESH.STATUS", "OK 3 50 P 2047 0 4S")]
      ∧ replies .intakeMode .q office
        [("INTAKE.MODE REFUSE", "OK"), ("INTAKE.MODE NONE", "ERR ARGS")]
      ∧ replies .intakeStatus .q office
        [("INTAKE.STATUS", "OK NORMAL NORMAL 4096")] := by
  decide +kernel

theorem test_plant_and_outage_verbs :
    replies .unitSet .q office
        [("UNIT.SET 510 LINE_EXT 511 000300", "OK"), ("UNIT.SET 1 SPLIT - -", "OK"),
          ("UNIT.SET 1 SPLIT - 000300", "ERR ARGS"), ("UNIT.SET 512 SPLIT - -", "ERR ARGS"),
          ("UNIT.SET 0 TRUNK_AMP 511 000100", "ERR ARGS"), ("UNIT.SET 0 NONE - -", "ERR INUSE"),
          ("UNIT.SET 1 LINE_EXT - 000200", "ERR DUPLICATE"), ("UNIT.SET 1 LINE_EXT - 000010", "ERR DUPLICATE")]
      ∧ replies .unitService .q office
        [("UNIT.SERVICE 511 0", "OK"), ("UNIT.SERVICE 0 1", "OK"), ("UNIT.SERVICE 1 1", "ERR ARGS"),
          ("UNIT.SERVICE 512 1", "ERR ARGS")]
      ∧ replies .unitRead .q office
        [("UNIT.READ 511", "OK BRIDGER 0 000200 1 SILENT 0 - 0 - -"), ("UNIT.READ 1", "OK NONE"),
          ("UNIT.READ 512", "ERR ARGS")]
      ∧ replies .unitList .q office
        [("UNIT.LIST SILENT 511", "OK 511 -"), ("UNIT.LIST COND 0", "OK -"), ("UNIT.LIST GOOD 0", "ERR ARGS")]
      ∧ replies .pollStatus .q { office with ppl := { office.ppl with running := true, cursor := 511, poll := some ⟨511, 0x200, 2, 1, true, 7, false⟩ } }
        [("POLL.STATUS", "OK R 511 0 0 60 511 1 2 1 0")]
      ∧ replies .outageDeclare .q office
        [("OUTAGE.DECLARE 511 1", "OK 1"), ("OUTAGE.DECLARE 0 0", "OK 1"), ("OUTAGE.DECLARE 1 0", "ERR ARGS")]
      ∧ replies .outageDeclare .q dark
        [("OUTAGE.DECLARE 0 1", "ERR OVERLAP")]
      ∧ replies .outageEnd .q dark
        [("OUTAGE.END 65535", "OK"), ("OUTAGE.END 1", "ERR ARGS")]
      ∧ replies .outageRead .q dark
        [("OUTAGE.READ 65535", "OK 65535 DECLARED 1 511 OPEN - - 900 - - 1 1"), ("OUTAGE.READ 1", "ERR RANGE"),
          ("OUTAGE.READ 0", "ERR ARGS")]
      ∧ replies .outageList .p dark
        [("OUTAGE.LIST OPEN 1", "OK 1 63 1 0 - 65535 511 -"), ("OUTAGE.LIST OPEN 0", "ERR ARGS"),
          ("OUTAGE.LIST SHUT 1", "ERR ARGS")] := by
  decide +kernel

theorem test_journal_and_time_verbs :
    replies .journalRead .q booked
        [("JOURNAL.READ 4294967295 8", "OK 4294967295 PERIOD 40 0 3;0 RESUME 41 1 7 9;1 TIERS 42 0 7 9 2 2,15"),
          ("JOURNAL.READ 1 1", "OK 1 TIERS 42 0 7 9 2 2,15"), ("JOURNAL.READ 2 1", "OK"),
          ("JOURNAL.READ 3 1", "ERR RANGE"), ("JOURNAL.READ 1 9", "ERR ARGS")]
      ∧ replies .journalRelease .q booked
        [("JOURNAL.RELEASE 0", "OK 4095"), ("JOURNAL.RELEASE 1", "OK 4096"), ("JOURNAL.RELEASE 2", "ERR RANGE"),
          ("JOURNAL.RELEASE 4294967296", "ERR ARGS")]
      ∧ replies .journalStatus .q booked
        [("JOURNAL.STATUS", "OK 4294967295 1 2 3 4093 4294967295 1 2047 9")]
      ∧ replies .periodClose .q booked
        [("PERIOD.CLOSE", "OK 2 1"), ("PERIOD.CLOSE 1", "ERR ARGS")]
      ∧ replies .timeSet .q office
        [("TIME.SET 4294967295", "OK"), ("TIME.SET 4294967296", "ERR ARGS")]
      ∧ replies .timeStatus .q office
        [("TIME.STATUS", "OK 50 S 0 1000 0 INT 0 W")] := by
  decide +kernel

theorem test_office_verbs :
    replies .attnRead .p (raise .link (raise .source office))
        [("ATTN.READ", "OK SOURCE,LINK -")]
      ∧ replies .attnClear .p (raise .link office)
        [("ATTN.CLEAR LINK", "OK"), ("ATTN.CLEAR ALL", "OK"), ("ATTN.CLEAR LINKS", "ERR ARGS")]
      ∧ replies .attnMask .q office
        [("ATTN.MASK -", "OK"), ("ATTN.MASK SOURCE,LINK", "OK"), ("ATTN.MASK LINKS", "ERR ARGS")]
      ∧ replies .attnForce .q office
        [("ATTN.FORCE JFULL", "OK"), ("ATTN.FORCE -", "ERR ARGS")]
      ∧ replies .identify .m office
        [("IDENTIFY", "OK WILTZEN HX-240 C"), ("IDENTIFY COMPATIBLE", "ERR ARGS")]
      ∧ replies .status .p (raise .link office)
        [("STATUS", "OK STANDBY S 0 INT 1 0 0 0 1")]
      ∧ replies .paramSet .m office
        [("PARAM.SET HOLDOFF 65535", "OK HOLDOFF 65535"), ("PARAM.SET HOLDOFF 65536", "ERR ARGS"),
          ("PARAM.SET ALERT 5", "ERR ARGS")]
      ∧ replies .paramRead .q office
        [("PARAM.READ ALL", "OK REFRESH_STEP 50 AUTH_TRIES 3 REFRESH_MISSES 3 POLL_TRIES 2 SILENT_CYCLES 3 POLL_CYCLE 60 LOSS_SAMPLES 5 RETURN_SAMPLES 20 CAROUSEL_FLOOR 50 JOURNAL_WATERMARK 512 CREDIT_THRESHOLD 240 ALERT_INTERVAL 10 HOLDOFF 14400"),
          ("PARAM.READ POLL_CYCLE", "OK POLL_CYCLE 60"), ("PARAM.READ X", "ERR ARGS")] := by
  decide +kernel

theorem test_run_state_verbs :
    replies .run .q office
        [("RUN", "OK"), ("RUN 1", "ERR ARGS")]
      ∧ replies .run .q standby
        [("RUN", "ERR TIME")]
      ∧ replies .stop .q (office.setRunState .run)
        [("STOP", "OK")]
      ∧ replies .stop .q office
        [("STOP", "ERR STATE")]
      ∧ replies .settingsStatus .q office
        [("SETTINGS.STATUS", "OK BLANK INVALID - IDLE")]
      ∧ replies .settingsSave .m (office.setRunState .run)
        [("SETTINGS.SAVE", "ERR STATE")]
      ∧ replies .settingsClear .m { office with sst := { office.sst with flash := .erasing .abandon } }
        [("SETTINGS.CLEAR", "ERR BUSY")]
      ∧ replies .reset .m office
        [("RESET 1", "ERR ARGS")] := by
  decide +kernel

/-- Every verb that is refused in SAVING is refused BUSY there, whatever its arguments. -/
theorem test_saving_is_busy :
    ([(.slotSet, .q, "SLOT.SET"), (.eventAdd, .q, "EVENT.ADD"),
      (.eventCancel, .q, "EVENT.CANCEL"), (.eventDelete, .q, "EVENT.DELETE"), (.carouselMode, .q, "CAROUSEL.MODE"),
      (.carouselText, .q, "CAROUSEL.TEXT"), (.carouselEnable, .q, "CAROUSEL.ENABLE"), (.sourceSet, .q, "SOURCE.SET"),
      (.protectSet, .q, "PROTECT.SET"), (.protectClear, .m, "PROTECT.CLEAR"), (.dropConnect, .q, "DROP.CONNECT"),
      (.dropTiers, .q, "DROP.TIERS"), (.dropSuspend, .q, "DROP.SUSPEND"), (.dropResume, .q, "DROP.RESUME"),
      (.dropDisconnect, .q, "DROP.DISCONNECT"), (.dropReassign, .q, "DROP.REASSIGN"), (.dropSend, .q, "DROP.SEND"),
      (.intakeMode, .q, "INTAKE.MODE"), (.unitSet, .q, "UNIT.SET"), (.unitService, .q, "UNIT.SERVICE"),
      (.outageDeclare, .q, "OUTAGE.DECLARE"), (.outageEnd, .q, "OUTAGE.END"),
      (.journalRelease, .q, "JOURNAL.RELEASE"), (.periodClose, .q, "PERIOD.CLOSE"), (.timeSet, .q, "TIME.SET"),
      (.paramSet, .m, "PARAM.SET")] : List (Verb × Lane × String)).all
      (fun x => replies x.1 x.2.1 (office.setRunState .saving) [(x.2.2, "ERR BUSY")]) = true := by
  decide +kernel

/-- R76: DROP.SEND of a drop in an outage parks it with its attempts set to 0. -/
theorem test_send_in_an_outage :
    let s := dark.setDrop 0 { dark.drop 0 with attempts := 3, link := some .unconfirmed }
    (nextOf (exec (.dropSend .q) (asks .q "DROP.SEND 0" s))).map (fun t => ((t.drop 0).link, (t.drop 0).attempts))
      = some (some .parked, 0) := by
  decide +kernel

/-! ## Lemmas about the small states -/

theorem all_of_keys {α : Type} (blank : Nat → α) (t : Table α) (P : Nat → α → Prop) (h0 : ∀ k, P k (blank k))
    (h : ∀ k ∈ Table.keys t, P k (Table.get blank t k)) (k : Nat) : P k (Table.get blank t k) := by
  by_cases hk : k ∈ Table.keys t
  · exact h k hk
  · have hn : Table.find t k = none := by
      clear h
      induction t with
      | nil => rfl
      | cons e t ih =>
        simp only [Table.keys, List.map_cons, List.mem_cons, not_or] at hk
        simp only [Table.find]
        rw [if_neg fun he => hk.1 he.symm]
        exact ih hk.2
    have : Table.get blank t k = blank k := by simp [Table.get, hn]
    rw [this]
    exact h0 k

theorem all_drops (s : State) (P : Nat → Drop → Prop) (h0 : ∀ d, P d Drop.blank) (h : ∀ d ∈ s.dropKeys, P d (s.drop d)) :
    ∀ d, P d (s.drop d) := all_of_keys _ s.dtb.drops P h0 h

theorem all_units (s : State) (P : Nat → PlantUnit → Prop) (h0 : ∀ u, P u PlantUnit.blank)
    (h : ∀ u ∈ s.unitKeys, P u (s.unit u)) : ∀ u, P u (s.unit u) := all_of_keys _ s.ppl.units P h0 h

theorem all_slots (s : State) (P : Nat → Slot → Prop) (h0 : ∀ k, P k (Slot.blank k))
    (h : ∀ k ∈ s.slotKeys, P k (s.slot k)) : ∀ k, P k (s.slot k) := all_of_keys _ s.lur.slots P h0 h

theorem all_events (s : State) (P : Nat → Option Event → Prop) (h0 : ∀ k, P k none)
    (h : ∀ k ∈ Table.keys s.lur.events, P k (s.event k)) : ∀ k, P k (s.event k) := all_of_keys _ s.lur.events P h0 h

theorem all_none {α : Type} {o : Option α} (h : o = none) (P : α → Prop) : ∀ a, o = some a → P a := by
  intro a ha; rw [h] at ha; cases ha

theorem all_some {α : Type} {o : Option α} {b : α} (h : o = some b) {P : α → Prop} (hb : P b) : ∀ a, o = some a → P a := by
  intro a ha; rw [h] at ha; cases ha; exact hb

/-- The words of a line after its verb. -/
def words (w : String) : List Text := splitWords false (ascii w)

/-! ## States that meet the hypotheses of the statements

A clause that says how a verb is refused is met by the line of the verb's test above that is answered with that reason:
the part takes the line, and the check fails. Below: the clauses that say what a command does. -/

theorem next_with {c : Instr} {s : State} (P : State → Bool) (h : (nextOf (exec c s)).any P = true) :
    ∃ t, exec c s = .next t ∧ P t = true := by
  cases he : exec c s with
  | next t => exact ⟨t, rfl, by rw [he] at h; exact h⟩
  | fault f => rw [he] at h; cases h
  | refused r => rw [he] at h; cases h

theorem witness_StepIdlesOnEmptyQueue : State.reset.pending = [] := rfl

theorem witness_EveryCommandCompletes :
    Instr.powerOn.wellFormed = true ∧ (Instr.activityReadAnswer []).wellFormed = false := by decide

theorem witness_WrongLaneAndUnknownVerb :
    (asks .q "RESET" office).dispatching .q .reset = some (0x37#8, []) ∧ Verb.carriedOn .reset .q = false
      ∧ (asks .p "NO.VERB" office).headLine .p = some ⟨0x37#8, ascii " NO.VERB"⟩
      ∧ (Line.mk 0x37#8 (ascii " NO.VERB")).request.1 = none := by decide +kernel

theorem witness_RefusedVerbChangesNothing :
    (asks .q "DROP.READ 2048" office).dispatching .q .dropRead = some (0x37#8, words "2048")
      ∧ ∃ t, exec (.dropRead .q) (asks .q "DROP.READ 2048" office) = .next t
        ∧ decide (t.ofp.outQ = (asks .q "DROP.READ 2048" office).ofp.outQ ++ [.reply .q 0x37#8 (.err .args)]) = true :=
  ⟨by decide +kernel, next_with _ (by decide +kernel)⟩

/-- `booked` with three windows, pending and announced attention, 15 lines to send and a SETTINGS.CLEAR waiting. -/
def whole : State :=
  let s := raise .source (booked.setAttn .link ⟨true, true, true, false⟩)
  { s with
    ofp := { s.ofp with outQ := List.replicate 15 (.notice [.link]), clearTag := some 1#8 }
    csc := { s.csc with windows := [⟨0x10, .auth, 0, 1, 4⟩, ⟨0x20, .refresh, 2047, 2, 5⟩, ⟨0x200, .poll, 511, 3, 6⟩] }
    pending := [.lineOverflow] }

/-- The hypotheses of every statement `EveryStepKeeps…`. -/
theorem witness_EveryStepKeepsInvariants :
    MarksCurrent whole.report ∧ TablesCanonical whole.report ∧ WindowsSound whole.report ∧ AttentionSound whole.report
      ∧ OfficeBounded whole.report ∧ JournalSound whole.report ∧ ∃ t, step whole.report = .next t := by
  refine ⟨?_, ?_, ?_, ?_, ?_, ?_, _, rfl⟩
  · unfold MarksCurrent; decide +kernel
  · unfold TablesCanonical; decide +kernel
  · unfold WindowsSound; decide +kernel
  · intro k; cases k <;> decide +kernel
  · refine ⟨by decide +kernel, fun l => ?_⟩
    cases l <;> decide +kernel
  · unfold JournalSound; decide +kernel

theorem witness_SlotAndSourceReadings :
    Takes .slotRead .q 0x37#8 (words "80") (asks .q "SLOT.READ 80" office) ∧ argNum 1 80 (ascii "80") = some 80
      ∧ argNum 1 80 (ascii "81") = none
      ∧ Takes .sourceRead .q 0x37#8 (words "0") (asks .q "SOURCE.READ 0" office) ∧ argNum 0 47 (ascii "0") = some 0
      ∧ argNum 0 47 (ascii "48") = none ∧ Takes .sourceList .q 0x37#8 [] (asks .q "SOURCE.LIST" office) := by
  unfold Takes; decide +kernel

theorem witness_EventMatrixStrayCarrierVerbs :
    Takes .eventRead .q 0x37#8 (words "255") (asks .q "EVENT.READ 255" office)
      ∧ argNum 1 255 (ascii "255") = some 255
      ∧ ((asks .q "EVENT.READ 255" office).findEvent 255).map Prod.fst = some 0 ∧ office.findEvent 254 = none
      ∧ Takes .eventList .q 0x37#8 [] (asks .q "EVENT.LIST" office)
      ∧ Takes .matrixStatus .q 0x37#8 [] (asks .q "MATRIX.STATUS" office)
      ∧ Takes .strayRead .q 0x37#8 [] (asks .q "STRAY.READ" office) ∧ (asks .q "STRAY.READ" office).urx.stray = none
      ∧ (asks .q "STRAY.READ" { office with urx := ⟨some ⟨.form, 0, 0x81#8, none, 0⟩⟩ }).urx.stray
        = some ⟨.form, 0, 0x81#8, none, 0⟩
      ∧ Takes .strayRearm .q 0x37#8 [] (asks .q "STRAY.REARM" office)
      ∧ Takes .carrierStatus .q 0x37#8 [] (asks .q "CARRIER.STATUS" office) := by
  unfold Takes; decide +kernel

theorem witness_ProtectVerbs :
    Takes .protectSet .q 0x37#8 (words "7") (asks .q "PROTECT.SET 7" office) ∧ office.sst.runState ≠ .saving
      ∧ argNum 0 7 (ascii "7") = some 7 ∧ argNum 0 7 (ascii "8") = none
      ∧ Takes .protectClear .m 0x37#8 (words "0") (asks .m "PROTECT.CLEAR 0" office) ∧ argNum 0 7 (ascii "0") = some 0
      ∧ (asks .q "PROTECT.CLEAR 0" office).dispatching .q .protectClear = some (0x37#8, words "0")
      ∧ Takes .protectRead .q 0x37#8 [] (asks .q "PROTECT.READ" office) := by
  unfold Takes; decide +kernel

theorem witness_DropReadings :
    Takes .dropRead .q 0x37#8 (words "2047") (asks .q "DROP.READ 2047" office) ∧ argNum 0 2047 (ascii "2047") = some 2047
      ∧ Takes .dropList .q 0x37#8 [ascii "ACTIVE", ascii "0"] (asks .q "DROP.LIST ACTIVE 0" office)
      ∧ argNum 0 2047 (ascii "0") = some 0 ∧ argWordOf serviceWords (ascii "ACTIVE") = some .active
      ∧ argWordOf serviceWords (ascii "PARKED") = none ∧ argWordOf linkWords (ascii "PARKED") = some .parked
      ∧ argWordOf serviceWords (ascii "GONE") = none ∧ argWordOf linkWords (ascii "GONE") = none := by
  unfold Takes; decide +kernel

theorem witness_UnitAndOutageReadings :
    Takes .unitRead .q 0x37#8 (words "511") (asks .q "UNIT.READ 511" office) ∧ argNum 0 511 (ascii "511") = some 511
      ∧ argNum 0 511 (ascii "512") = none ∧ (office.unit 511).cfg.kind ≠ .none ∧ (office.unit 1).cfg.kind = .none
      ∧ Takes .unitList .q 0x37#8 [ascii "COND", ascii "0"] (asks .q "UNIT.LIST COND 0" office)
      ∧ argNum 0 511 (ascii "0") = some 0 ∧ ascii "SILENT" ≠ ascii "COND"
      ∧ argWordOf unitStateWords (ascii "SILENT") = some .silent ∧ argWordOf unitStateWords (ascii "GOOD") = none
      ∧ Takes .pollStatus .q 0x37#8 [] (asks .q "POLL.STATUS" office)
      ∧ Takes .outageRead .q 0x37#8 (words "65535") (asks .q "OUTAGE.READ 65535" dark)
      ∧ argNum 1 65535 (ascii "65535") = some 65535 ∧ argNum 1 65535 (ascii "0") = none
      ∧ (dark.record 65535).isSome = true ∧ dark.record 1 = none
      ∧ Takes .outageList .p 0x37#8 [ascii "OPEN", ascii "1"] (asks .p "OUTAGE.LIST OPEN 1" dark)
      ∧ argWordOf outageStateWords (ascii "OPEN") = some .opened ∧ argNum 1 65535 (ascii "1") = some 1
      ∧ argWordOf outageStateWords (ascii "SHUT") = none := by
  unfold Takes; decide +kernel

theorem witness_JournalReadings :
    Takes .journalRead .q 0x37#8 (words "1 8") (asks .q "JOURNAL.READ 1 8" booked) ∧ argWord (ascii "1") = some 1
      ∧ argNum 1 8 (ascii "8") = some 8 ∧ argNum 1 8 (ascii "9") = none
      ∧ booked.bjn.held.head?.map (fun o => ((1 : Word) - o.seq).toNat) = some 2 ∧ 2 < booked.bjn.held.length
      ∧ booked.bjn.held.head?.map (fun o => (booked.bjn.nextSeq - o.seq).toNat) = some booked.bjn.held.length
      ∧ Takes .journalStatus .q 0x37#8 [] (asks .q "JOURNAL.STATUS" booked) ∧ booked.bjn.drainLeft ≠ some 0 := by
  unfold Takes; decide +kernel

theorem witness_TimeAndStatusReports :
    Takes .timeStatus .q 0x37#8 [] (asks .q "TIME.STATUS" office) ∧ Takes .status .q 0x37#8 [] (asks .q "STATUS" office)
      ∧ Takes .status .p 0x37#8 [] (asks .p "STATUS" office) ∧ Takes .status .m 0x37#8 [] (asks .m "STATUS" office) := by
  unfold Takes; decide +kernel

theorem witness_AttentionVerbs :
    Takes .attnRead .p 0x37#8 [] (asks .p "ATTN.READ" office)
      ∧ Takes .attnClear .p 0x37#8 (words "SOURCE,LINK") (asks .p "ATTN.CLEAR SOURCE,LINK" office)
      ∧ argKindsOrAll (ascii "SOURCE,LINK") = some [.source, .link] ∧ argKindsOrAll (ascii "LINKS") = none
      ∧ Takes .attnMask .q 0x37#8 (words "-") (asks .q "ATTN.MASK -" office)
      ∧ Takes .attnForce .q 0x37#8 (words "ALL") (asks .q "ATTN.FORCE ALL" office)
      ∧ argKindsOrAll (ascii "ALL") = some Kind.all ∧ ascii "LINKS" ≠ ascii "-" := by
  unfold Takes; decide +kernel

theorem witness_IdentityVerbs :
    Takes .identify .p 0x37#8 [] (asks .p "IDENTIFY" office)
      ∧ Takes .identify .m 0x37#8 [ascii "COMPAT"] (asks .m "IDENTIFY COMPAT" office)
      ∧ Takes .identify .q 0x37#8 (words "X") (asks .q "IDENTIFY X" office) ∧ words "X" ≠ []
      ∧ words "X" ≠ [ascii "COMPAT"] ∧ Takes .reset .m 0x37#8 [] (asks .m "RESET" office) := by
  unfold Takes; decide +kernel

theorem witness_EngineStatusReadings :
    Takes .authStatus .q 0x37#8 [] (asks .q "AUTH.STATUS" office)
      ∧ Takes .refreshStatus .q 0x37#8 [] (asks .q "REFRESH.STATUS" office)
      ∧ Takes .intakeStatus .q 0x37#8 [] (asks .q "INTAKE.STATUS" office)
      ∧ Takes .settingsStatus .q 0x37#8 [] (asks .q "SETTINGS.STATUS" office)
      ∧ Takes .carouselRead .q 0x37#8 [] (asks .q "CAROUSEL.READ" office) := by
  unfold Takes; decide +kernel

/-- `office` with slot 80 asked for; enabled on a free display number, it passes both checks of R2. -/
theorem witness_SlotVerbEffects :
    let s := asks .q "SLOT.SET 80 1 999 \"B\" 15 47 - 0 0" office
    let c : SlotCfg := ⟨true, 999, ascii "B", 15, 47, none, false, false⟩
    (Takes .slotSet .q 0x37#8 (words "80 1 999 \"B\" 15 47 - 0 0") s ∧ s.sst.runState ≠ .saving
        ∧ argsSlotSet (words "80 1 999 \"B\" 15 47 - 0 0") = some (80, c) ∧ (s.slot 80).cfg ≠ c)
      ∧ (¬(c.enabled = true ∧ ∃ j, j ≠ 80 ∧ (s.slot j).cfg.enabled = true ∧ (s.slot j).cfg.display = c.display))
      ∧ (Takes .slotSet .q 0x37#8 (words "2 1 3 \"A\" 2 4 - 0 0") (asks .q "SLOT.SET 2 1 3 \"A\" 2 4 - 0 0" office)
        ∧ argsSlotSet (words "2 1 3 \"A\" 2 4 - 0 0") = some (2, (office.slot 2).cfg))
      ∧ Takes .slotRestore .q 0x37#8 (words "2") (asks .q "SLOT.RESTORE 2" office)
      ∧ one (argNum 1 80) (words "2") = some 2 ∧ office.usable (office.slot 2).cfg.primary = true
      ∧ (office.slot 2).latch = true ∧ (office.slot 1).latch = false := by
  refine ⟨by unfold Takes; decide +kernel, ?_, by unfold Takes; decide +kernel⟩
  rintro ⟨_, j, hj⟩
  exact all_slots _ (fun j r => ¬(j ≠ 80 ∧ r.cfg.enabled = true ∧ r.cfg.display = 999)) (fun k h => by cases h.2.1)
    (by decide +kernel) j hj

/-- An event on slot 2 that passes the checks of R12, and goes into entry 1. -/
theorem witness_EventAddEffects :
    let s := asks .q "EVENT.ADD 2 2 47 60 60 61 65535" office
    let c : EventCfg := ⟨2, 2, 47, 60, 60, 61, 65535, false⟩
    (Takes .eventAdd .q 0x37#8 (words "2 2 47 60 60 61 65535") s ∧ s.sst.runState ≠ .saving
        ∧ argsEventAdd (words "2 2 47 60 60 61 65535") = some c ∧ ¬(s.tmb.timeSet = true ∧ c.stop ≤ s.tmb.station)
        ∧ (s.slot c.slot).cfg.enabled = true ∧ s.event 1 = none ∧ ∀ j, j < 1 → s.event j ≠ none)
      ∧ (¬∃ n e, s.event n = some e ∧ e.cfg.slot = c.slot ∧ e.state ≠ .ended ∧ e.cfg.start < c.stop
          ∧ c.start < e.cfg.stop)
      ∧ ¬∃ n e, s.event n = some e ∧ e.cfg.id = c.id := by
  refine ⟨by unfold Takes; decide +kernel, ?_, ?_⟩
  · rintro ⟨n, e, h, hs, hn, _⟩
    have := all_events office (fun _ x => ∀ e ∈ x, ¬(e.cfg.slot = 2 ∧ e.state ≠ .ended)) (by simp)
      (by decide +kernel) n e h
    exact this ⟨hs, hn⟩
  · rintro ⟨n, e, h, hi⟩
    exact all_events office (fun _ x => ∀ e ∈ x, e.cfg.id ≠ 2) (by simp) (by decide +kernel) n e h hi

theorem witness_EventCancelAndDelete :
    Takes .eventCancel .q 0x37#8 (words "255") (asks .q "EVENT.CANCEL 255" office) ∧ office.sst.runState ≠ .saving
      ∧ (one (fun a => (argNum 1 255 a).bind office.findEvent) (words "255")).map (fun x => (x.1, x.2.state))
        = some (0, .scheduled)
      ∧ Takes .eventDelete .q 0x37#8 (words "1") (asks .q "EVENT.DELETE 1" office)
      ∧ (one (fun a => (argNum 1 255 a).bind office.findEvent) (words "1")).map (fun x => (x.1, x.2.state, x.2.cleanup))
        = some (31, .ended, true) := by
  unfold Takes; decide +kernel

/-- `office` with the override active: it expires at run second 1000, which is now, and an ALERT is due now. -/
def alerting : State := office.setOverride ⟨true, 47, 1, 9, 1000, 1000, false⟩

theorem witness_EmergencyOverride :
    Takes .emergencyOn .p 0x37#8 (words "47 3600 1 255") (asks .p "EMERGENCY.ON 47 3600 1 255" office)
      ∧ argsEmergencyOn (words "47 3600 1 255") = some (47, 3600, 1, 255)
      ∧ argsEmergencyOn (words "47 3601 1 255") = none
      ∧ (office.source 47).cfg.kind = .alert ∧ (office.slot 1).cfg.enabled = true ∧ office.lur.override.active = false
      ∧ alerting.lur.override.active = true ∧ alerting.lur.override.source = 47
      ∧ Takes .emergencyOff .p 0x37#8 [] (asks .p "EMERGENCY.OFF" alerting)
      ∧ alerting.tmb.run = alerting.lur.override.expiry ∧ alerting.tmb.run = alerting.lur.override.nextDue := by
  unfold Takes; decide +kernel

theorem witness_CarouselVerbs :
    Takes .carouselMode .q 0x37#8 (words "BURST 255") (asks .q "CAROUSEL.MODE BURST 255" office)
      ∧ office.sst.runState ≠ .saving ∧ argsCarouselMode (words "BURST 255") = some (.burst 255)
      ∧ argsCarouselMode (words "BURST 256") = none ∧ argsCarouselMode (words "HOLD 15") = some (.hold 15)
      ∧ Takes .carouselText .q 0x37#8 (words "\"A B\"") (asks .q "CAROUSEL.TEXT \"A B\"" office)
      ∧ one (fun a => (argText a).filter fun x => decide (x.length ≤ 96)) (words "\"A B\"") = some (ascii "A B")
      ∧ Takes .carouselEnable .q 0x37#8 (words "15 0") (asks .q "CAROUSEL.ENABLE 15 0" office)
      ∧ two (argNum 0 15) argFlag (words "15 0") = some (15, false)
      ∧ two (argNum 0 15) argFlag (words "16 0") = none := by
  unfold Takes; decide +kernel

theorem witness_SourceSetEffects :
    Takes .sourceSet .q 0x37#8 (words "47 OFFAIR 1") (asks .q "SOURCE.SET 47 OFFAIR 1" office)
      ∧ office.sst.runState ≠ .saving ∧ argsSourceSet (words "47 OFFAIR 1") = some (47, ⟨.offair, true⟩)
      ∧ (office.source 47).cfg.monitored = false
      ∧ Takes .sourceSet .q 0x37#8 (words "0 SLATE 0") (asks .q "SOURCE.SET 0 SLATE 0" office)
      ∧ argsSourceSet (words "0 SLATE 0") = some (0, ⟨.slate, false⟩) ∧ (office.source 0).cfg.monitored = false
      ∧ argsSourceSet (words "0 SLATE 1") = some (0, ⟨.slate, true⟩) ∧ argsSourceSet (words "48 OFFAIR 1") = none := by
  unfold Takes; decide +kernel

/-- Drop 2046, with a free address, passes the checks of R69: under the dark unit 511 of `dark` it is parked, in
`office` it is queued. -/
theorem witness_DropConnectEffects :
    let free := fun s : State =>
      (s.sst.runState ≠ .saving ∧ (s.drop 2046).service = .vacant ∧ (s.drop 2046).pending = 0
        ∧ (s.unit 511).cfg.kind ≠ .none ∧ s.csc.windows = [] ∧ 256 < 4096 - s.bjn.held.length ∧ s.aen.queue = [])
      ∧ (¬∃ j, (s.drop j).service ≠ .vacant ∧ (s.drop j).address = some 0xABCD#24)
      ∧ ¬∃ v, (s.unit v).cfg.kind ≠ .none ∧ (s.unit v).cfg.address = some 0xABCD#24
    (Takes .dropConnect .q 0x37#8 (words "2046 00ABCD 1 511 -") (asks .q "DROP.CONNECT 2046 00ABCD 1 511 -" office)
        ∧ argsConnect (words "2046 00ABCD 1 511 -") = some (2046, 0xABCD#24, 1#32, 511, 0#16)
        ∧ office.properAt 511 = none ∧ dark.properAt 511 = some 65535
        ∧ Takes .dropConnect .q 0x37#8 (words "2046 00ABCD 1 511 -") (asks .q "DROP.CONNECT 2046 00ABCD 1 511 -" dark))
      ∧ free (asks .q "DROP.CONNECT 2046 00ABCD 1 511 -" office)
      ∧ free (asks .q "DROP.CONNECT 2046 00ABCD 1 511 -" dark) := by
  refine ⟨by unfold Takes; decide +kernel, ⟨by decide +kernel, ?_, ?_⟩, ⟨by decide +kernel, ?_, ?_⟩⟩
  · rintro ⟨j, h⟩
    exact all_drops office (fun _ r => ¬(r.service ≠ .vacant ∧ r.address = some 0xABCD#24)) (fun _ => by decide)
      (by decide +kernel) j h
  · rintro ⟨j, h⟩
    exact all_units office (fun _ r => ¬(r.cfg.kind ≠ .none ∧ r.cfg.address = some 0xABCD#24)) (fun _ => by decide)
      (by decide +kernel) j h
  · rintro ⟨j, h⟩
    exact all_drops dark (fun _ r => ¬(r.service ≠ .vacant ∧ r.address = some 0xABCD#24)) (fun _ => by decide)
      (by decide +kernel) j h
  · rintro ⟨j, h⟩
    exact all_units dark (fun _ r => ¬(r.cfg.kind ≠ .none ∧ r.cfg.address = some 0xABCD#24)) (fun _ => by decide)
      (by decide +kernel) j h

theorem witness_DropTiersSuspendSend :
    Takes .dropTiers .q 0x37#8 (words "0 1,15") (asks .q "DROP.TIERS 0 1,15" office) ∧ office.sst.runState ≠ .saving
      ∧ two (argNum 0 2047) argTiers (words "0 1,15") = some (0, 0x8002#16) ∧ (office.drop 0).service = .active
      ∧ 256 < 4096 - office.bjn.held.length ∧ office.aen.queue = []
      ∧ Takes .dropSuspend .q 0x37#8 (words "0") (asks .q "DROP.SUSPEND 0" office)
      ∧ one (argNum 0 2047) (words "0") = some 0 ∧ office.guarded (0 / 256) = false
      ∧ Takes .dropSend .q 0x37#8 (words "2047") (asks .q "DROP.SEND 2047" office)
      ∧ one (argNum 0 2047) (words "2047") = some 2047 ∧ (office.drop 2047).service = .suspended
      ∧ (office.drop 2047).link = some .unconfirmed ∧ one (argNum 0 2047) (words "2048") = none := by
  unfold Takes; decide +kernel

theorem witness_DropDisconnectEffects :
    Takes .dropDisconnect .q 0x37#8 (words "0") (asks .q "DROP.DISCONNECT 0" office) ∧ office.sst.runState ≠ .saving
      ∧ one (argNum 0 2047) (words "0") = some 0 ∧ (office.drop 0).service = .active ∧ office.guarded (0 / 256) = false
      ∧ 256 < 4096 - office.bjn.held.length ∧ office.aen.queue = [] ∧ (office.drop 0).outage = none
      ∧ Takes .dropDisconnect .q 0x37#8 (words "0") (asks .q "DROP.DISCONNECT 0" dark)
      ∧ dark.sst.runState ≠ .saving ∧ (dark.drop 0).service = .active ∧ dark.guarded (0 / 256) = false
      ∧ 256 < 4096 - dark.bjn.held.length ∧ (dark.drop 0).outage = some 65535 := by
  unfold Takes; decide +kernel

theorem witness_DropResumeAndReassign :
    Takes .dropResume .q 0x37#8 (words "2047") (asks .q "DROP.RESUME 2047" office) ∧ office.sst.runState ≠ .saving
      ∧ one (argNum 0 2047) (words "2047") = some 2047 ∧ (office.drop 2047).service = .suspended
      ∧ 256 < 4096 - office.bjn.held.length ∧ office.aen.queue = []
      ∧ Takes .dropReassign .q 0x37#8 (words "0 511") (asks .q "DROP.REASSIGN 0 511" office)
      ∧ two (argNum 0 2047) (argNum 0 511) (words "0 511") = some (0, 511) ∧ (office.drop 0).service ≠ .vacant
      ∧ (office.unit 511).cfg.kind ≠ .none ∧ (office.drop 0).link ≠ some .parked := by
  unfold Takes; decide +kernel

theorem witness_TransitionOfOneDrop :
    office.bjn.held.length < 4096 ∧ (office.drop 0).outage = none ∧ (office.drop 0).service ≠ .closing
      ∧ ((office.setDrop 0 { office.drop 0 with service := .closing }).drop 0).service = .closing
      ∧ (dark.drop 0).outage = some 65535 ∧ (1 : Nat) ≠ 65535 ∧ dark.credits 65535 = true ∧ dark.credits 1 = false
      ∧ (dark.drop 0).accrual ≠ none
      ∧ (let u := transition 0 (dark.proper 0) (dark.setDrop 0 { dark.drop 0 with link := some .parked })
        (u.drop 0).link = some .parked ∧ (u.drop 0).outage ≠ none)
      ∧ (let s := office.setDrop 0 { office.drop 0 with link := some .parked }
        let u := transition 0 (s.proper 0) s
        (u.drop 0).link = some .parked ∧ (u.drop 0).outage = none ∧ u.aen.queue.length < 64) := by
  decide +kernel

/-! ### The plant and its outages -/

/-- `office` in RUN, with unit 511 under poll; the window open or not, a change held or not. -/
def polling (win held : Bool) : State :=
  let s := office.setRunState .run
  { s with ppl := { s.ppl with running := true, cursor := 511, poll := some ⟨511, 0x200, 2, 1, win, 990, held⟩ } }

/-- Unit 511 gets a new address, 000ABC, with no window on it: the checks of R106 pass, and its poll ends. -/
theorem witness_UnitSetEffects :
    let line := "UNIT.SET 511 BRIDGER 0 000ABC"
    let args := words "511 BRIDGER 0 000ABC"
    let passes := fun s : State =>
      (Takes .unitSet .q 0x37#8 args (asks .q line s) ∧ s.sst.runState ≠ .saving ∧ (s.unit 511).cfg.parent = some 0
          ∧ parentFits (asks .q line s) 511 .bridger (some 0) = true ∧ s.csc.windows = [])
        ∧ ¬((∃ v, v ≠ 511 ∧ (s.unit v).cfg.kind ≠ .none ∧ (s.unit v).cfg.address = some 0xABC#24)
          ∨ ∃ d, (s.drop d).service ≠ .vacant ∧ (s.drop d).address = some 0xABC#24)
    argsUnitSet args = some (511, .bridger, some 0, some 0xABC#24) ∧ passes office ∧ office.ppl.poll = none
      ∧ passes (polling true false) ∧ (office.unit 511).cfg.address ≠ some 0xABC#24
      ∧ ((polling true false).ppl.poll.map fun p => (p.unit, p.heldChange)) = some (511, false)
      ∧ passes (polling false true)
      ∧ ((polling false true).ppl.poll.map fun p => (p.unit, p.heldChange)) = some (511, true) := by
  have h : ∀ s : State, s.ppl.units = office.ppl.units → s.dtb = office.dtb →
      ¬((∃ v, v ≠ 511 ∧ (s.unit v).cfg.kind ≠ .none ∧ (s.unit v).cfg.address = some 0xABC#24)
        ∨ ∃ d, (s.drop d).service ≠ .vacant ∧ (s.drop d).address = some 0xABC#24) := by
    intro s hu hd
    rintro (⟨v, _, hv⟩ | ⟨d, hv⟩)
    · rw [show s.unit v = office.unit v by unfold State.unit; rw [hu]] at hv
      exact all_units office (fun _ r => ¬(r.cfg.kind ≠ .none ∧ r.cfg.address = some 0xABC#24)) (fun _ => by decide)
        (by decide +kernel) v hv
    · rw [show s.drop d = office.drop d by unfold State.drop; rw [hd]] at hv
      exact all_drops office (fun _ r => ¬(r.service ≠ .vacant ∧ r.address = some 0xABC#24)) (fun _ => by decide)
        (by decide +kernel) d hv
  refine ⟨by decide +kernel, ⟨by unfold Takes; decide +kernel, h _ rfl rfl⟩, by decide +kernel,
    ⟨by unfold Takes; decide +kernel, h _ rfl rfl⟩, by decide +kernel, by decide +kernel,
    ⟨by unfold Takes; decide +kernel, h _ rfl rfl⟩, by decide +kernel⟩

/-- `office` with unit 0 out of service. -/
def unserved : State :=
  office.setUnit 0 ⟨⟨.trunkAmp, none, some 0x100, false⟩, .outOfService, 0, none, false, none, false, false⟩

/-- Unit 511 is taken out of service: under no poll, under a poll with its window open, and between two attempts; and
put back, under no poll. -/
theorem witness_UnitServiceEffects :
    let takes := fun (w : String) (s : State) =>
      Takes .unitService .q 0x37#8 (words w) (asks .q ("UNIT.SERVICE " ++ w) s) ∧ s.sst.runState ≠ .saving
    (takes "511 0" office ∧ two (argNum 0 511) argFlag (words "511 0") = some (511, false)
      ∧ (office.unit 511).cfg.kind ≠ .none ∧ (office.unit 511).cfg.inService = true ∧ office.ppl.poll = none)
      ∧ (takes "511 0" (polling true false) ∧ takes "511 0" (polling false false)
      ∧ ((polling true false).ppl.poll.map fun p => (p.unit, p.windowOpen)) = some (511, true)
      ∧ ((polling false false).ppl.poll.map fun p => (p.unit, p.windowOpen)) = some (511, false))
      ∧ takes "0 1" office ∧ two (argNum 0 511) argFlag (words "0 1") = some (0, true)
      ∧ (office.unit 0).cfg.inService = true
      ∧ takes "0 1" unserved ∧ (unserved.unit 0).cfg.inService = false ∧ (unserved.unit 0).cfg.kind ≠ .none
      ∧ (dark.unit 511).cfg.kind ≠ .none ∧ (dark.unit 511).cfg.inService = true
      ∧ (∃ o ∈ dark.olz.log, o.state = .opened ∧ o.kind = .declared ∧ dark.atOrBelow 511 o.root = true)
      ∧ ¬∃ o ∈ office.olz.log, o.state = .opened ∧ o.kind = .declared ∧ office.atOrBelow 511 o.root = true := by
  refine ⟨?_, ?_, ?_⟩ <;> dsimp only [Takes] <;> decide +kernel

/-- A declaration at unit 511 of `office`, no record being open; one while unit 511 is under poll, its window open and
not; and the end of the record of `dark`. -/
theorem witness_OutageDeclareAndEnd :
    let takes := fun s : State =>
      Takes .outageDeclare .q 0x37#8 (words "511 1") (asks .q "OUTAGE.DECLARE 511 1" s) ∧ s.sst.runState ≠ .saving
        ∧ s.olz.log = []
    takes office ∧ two (argNum 0 511) argFlag (words "511 1") = some (511, true)
      ∧ hasTransponder (office.unit 511).cfg.kind = true ∧ office.ppl.poll = none
      ∧ takes (polling true false) ∧ takes (polling false false) ∧ (polling true false).atOrBelow 511 511 = true
      ∧ (polling true false).unit 511 = office.unit 511 ∧ (office.unit 511).cfg.inService = true
      ∧ office.atOrBelow 0 511 = false
      ∧ Takes .outageEnd .q 0x37#8 (words "65535") (asks .q "OUTAGE.END 65535" dark)
      ∧ (one (fun a => (argNum 1 65535 a).bind dark.record) (words "65535")).map (fun o => (o.kind, o.state))
        = some (.declared, .opened) := by
  unfold Takes; decide +kernel

/-- `office` with an OPEN SILENT record 4 at unit 511, which answers again. -/
def recovering : State :=
  let s := office.setUnit 511 (amp .bridger (some 0) 0x200 .answering)
  { s with olz := { s.olz with
      log := [⟨4, .silent, true, 511, .opened, none, [], false, 900, some 40, none, 0, 0⟩], nextNumber := 5 } }

/-- `recovering` with three units below unit 511: 509 MISSING, 510 SILENT, and 508 SILENT below 510; the next number is
that of the open record. -/
def splitting : State :=
  let s := recovering.setUnit 510 { amp .lineExt (some 511) 0x201 .silent with missed := 3, missingSince := some 950 }
  let s := s.setUnit 509 { amp .lineExt (some 511) 0x202 .missing with missed := 1, missingSince := some 980 }
  let s := s.setUnit 508 { amp .lineExt (some 510) 0x203 .silent with missed := 3, missingSince := some 960 }
  { s with olz := { s.olz with nextNumber := 4 } }

/-- A log of 64 OPEN records at a unit that is no unit of `s`'s plant. -/
def full (s : State) : State :=
  { s with olz := { s.olz with
      log := List.replicate 64 ⟨9, .silent, true, 300, .opened, none, [], false, 0, none, none, 0, 0⟩ } }

theorem witness_ReportsToTheLocalizer :
    ((511 ∈ dark.path 511 ∧ ∃ o ∈ dark.olz.log, o.state = .opened ∧ o.root = 511)
        ∧ ¬((full office).olz.log.length < 64 ∨ (full office).olz.closedOrder ≠ [])
        ∧ (¬∃ v ∈ (full office).path 511, ∃ o ∈ (full office).olz.log, o.state = .opened ∧ o.root = v)
        ∧ (¬∃ v ∈ office.path 511, ∃ o ∈ office.olz.log, o.state = .opened ∧ o.root = v) ∧ office.olz.log.length < 64
        ∧ (∀ o ∈ recovering.olz.log, ¬(o.state = .opened ∧ o.kind = .silent ∧ o.root = 0))
        ∧ recovering.olz.log.map (fun o => (o.state, o.kind, o.root)) = [(.opened, .silent, 511)]
        ∧ splitRoots splitting 511 = [509, 510] ∧ Table.wf (fun _ => PlantUnit.blank) splitting.ppl.units)
      ∧ ∀ v, recovering.below v 511 = true → (recovering.unit v).state ≠ .missing ∧ (recovering.unit v).state ≠ .silent := by
  refine ⟨by decide +kernel, fun v _ => ?_⟩
  exact all_units recovering (fun _ r => r.state ≠ .missing ∧ r.state ≠ .silent) (fun _ => by decide)
    (by decide +kernel) v

/-- R124: the record of a root that answers is split between the two dark units next below it, under the first free
numbers, and the unit below the second has none. -/
theorem test_split :
    let t := unitRecovered 511 splitting
    t.olz.log.map (fun o => (o.number, o.root, o.state, o.openRun)) = [(4, 511, .clearing, 900), (5, 509, .opened, 900),
        (6, 510, .opened, 900)]
      ∧ t.olz.log.map (fun o => o.successors) = [[5, 6], [], []] ∧ t.olz.settle = [4, 5, 6] ∧ t.olz.nextNumber = 7
      ∧ (unitRecovered 511 { splitting with olz := { splitting.olz with
          log := splitting.olz.log ++ List.replicate 62 ⟨9, .silent, true, 300, .opened, none, [], false, 0, none, none, 0, 0⟩ }
        }).unitKeys.map (fun u => (u, ((unitRecovered 511 { splitting with olz := { splitting.olz with
          log := splitting.olz.log ++ List.replicate 62 ⟨9, .silent, true, 300, .opened, none, [], false, 0, none, none, 0, 0⟩
          } }).unit u).unlogged)) = [(0, false), (508, false), (509, false), (510, true), (511, false)] := by
  decide +kernel

/-- R122: a unit that enters SILENT opens a record from its missing since, and absorbs those of the units below it. -/
theorem test_silent_root_absorbs :
    let s := (recovering.setUnit 0 { amp .trunkAmp none 0x100 .silent with missed := 3, missingSince := some 990 })
    let t := enteredSilent 0 s
    t.olz.log.map (fun o => (o.number, o.root, o.state, o.openRun, o.openStation))
        = [(4, 511, .clearing, 900, some 40), (5, 0, .opened, 990, some 40)]
      ∧ t.olz.log.map (fun o => (o.reason, o.successors)) = [(some .absorbed, [5]), (none, [])]
      ∧ t.olz.settle = [4, 5] := by
  decide +kernel

/-! ### The journal -/

theorem witness_JournalReleaseAndPeriodClose :
    Takes .journalRelease .q 0x37#8 (words "1") (asks .q "JOURNAL.RELEASE 1" booked) ∧ booked.sst.runState ≠ .saving
      ∧ one argWord (words "1") = some 1#32 ∧ one argWord (words "2") = some 2#32
      ∧ booked.bjn.held.head?.map (fun o => ((1 : Word) - o.seq).toNat) = some 2 ∧ booked.bjn.held.length = 3
      ∧ booked.bjn.held.head?.map (fun o => ((2 : Word) - o.seq).toNat) = some 3
      ∧ Takes .periodClose .q 0x37#8 [] (asks .q "PERIOD.CLOSE" booked) ∧ noArgs [] = some () := by
  unfold Takes; decide +kernel

/-- The drain of `booked` stands at drop 2047, which owes nothing; at drop 5 it finds 3 minutes; a full journal. -/
theorem witness_DrainWritesPendingCredit :
    booked.bjn.drainLeft = some (8 + 1) ∧ booked.sst.runState = .standby ∧ booked.bjn.held.length < 4096
      ∧ (booked.drop booked.bjn.drainCursor).pending = 0
      ∧ (let s : State := { booked with bjn := { booked.bjn with drainCursor := 5, drainLeft := some 1 } }
        s.bjn.drainLeft = some (0 + 1) ∧ 0 < (s.drop s.bjn.drainCursor).pending)
      ∧ (let s : State := { booked with bjn := { booked.bjn with held := List.replicate 4096 ⟨1, 0, false, .period 1⟩ } }
        4096 ≤ s.bjn.held.length ∧ s.bjn.drainLeft = some (8 + 1))
      ∧ ({ booked with bjn := { booked.bjn with drainLeft := some 0 } } : State).bjn.drainLeft = some 0 := by
  decide +kernel

/-! ### Time, parameters, run states -/

theorem witness_TimeSetEffects :
    Takes .timeSet .q 0x37#8 (words "4294967295") (asks .q "TIME.SET 4294967295" office) ∧ office.sst.runState ≠ .saving
      ∧ one argWord (words "4294967295") = some 4294967295#32 ∧ one argWord (words "4294967296") = none := by
  unfold Takes; decide +kernel

theorem witness_ParameterAndModeVerbs :
    Takes .paramSet .m 0x37#8 (words "POLL_CYCLE 3600") (asks .m "PARAM.SET POLL_CYCLE 3600" office)
      ∧ office.sst.runState ≠ .saving ∧ argsParamSet (words "POLL_CYCLE 3600") = some (.pollCycle, 3600)
      ∧ argsParamSet (words "POLL_CYCLE 9") = none ∧ argsParamSet (words "REFRESH_STEP 1") = some (.refreshStep, 1)
      ∧ Takes .paramRead .q 0x37#8 [ascii "ALL"] (asks .q "PARAM.READ ALL" office)
      ∧ Takes .paramRead .q 0x37#8 [ascii "HOLDOFF"] (asks .q "PARAM.READ HOLDOFF" office)
      ∧ ("HOLDOFF", Param.holdoff) ∈ paramWords ∧ (∀ e ∈ paramWords, ascii "X" ≠ ascii e.1)
      ∧ Takes .intakeMode .q 0x37#8 (words "DEFER") (asks .q "INTAKE.MODE DEFER" office)
      ∧ one (argWordOf intakeWords) (words "DEFER") = some .defer ∧ one (argWordOf intakeWords) (words "X") = none := by
  unfold Takes; decide +kernel

theorem witness_RunAndStop :
    Takes .run .q 0x37#8 [] (asks .q "RUN" office) ∧ office.sst.runState = .standby ∧ office.tmb.timeSet = true
      ∧ (let s := office.setRunState .run
        Takes .stop .q 0x37#8 [] (asks .q "STOP" s) ∧ s.sst.runState = .run ∧ s.ppl.poll = none)
      ∧ Takes .stop .q 0x37#8 [] (asks .q "STOP" (polling true false)) ∧ (polling true false).sst.runState = .run
      ∧ (polling true false).ppl.poll.map (fun p => p.windowOpen) = some true
      ∧ Takes .stop .q 0x37#8 [] (asks .q "STOP" (polling false true))
      ∧ (polling false true).ppl.poll.map (fun p => (p.windowOpen, p.heldChange)) = some (false, true) := by
  unfold Takes; decide +kernel

/-- `office` with a flash activity and perhaps an abandoned save. -/
def flashing (f : FlashActivity) (abandoned : Bool) : State :=
  { office with sst := { office.sst with flash := f, abandoned := abandoned } }

theorem witness_SettingsSaveEffects :
    (Takes .settingsSave .m 0x37#8 [] (asks .m "SETTINGS.SAVE" office) ∧ office.sst.runState = .standby)
      ∧ ¬FlashErases office
      ∧ ((flashing (.saving .erase) false).sst.abandoned = false ∧ (flashing (.saving .version) true).sst.abandoned = true
        ∧ (flashing (.erasing .abandon) false).sst.flash = .erasing .abandon
        ∧ (∀ ph : SavePhase, (flashing (.saving ph) false).sst.flash = .saving ph) ∧ 0 ≤ 4294967295) := by
  refine ⟨by unfold Takes; decide +kernel, ?_, by decide +kernel, by decide +kernel, by decide +kernel, fun _ => rfl,
    by decide⟩
  rintro (h | ⟨c, h⟩)
  · exact absurd h (by decide +kernel)
  · cases h

theorem witness_SettingsClearEffects :
    (Takes .settingsClear .m 0x37#8 [] (asks .m "SETTINGS.CLEAR" office) ∧ office.sst.runState = .standby)
      ∧ ¬FlashErases office
      ∧ (let s : State := { flashing (.erasing .clear) false with ofp := { office.ofp with clearTag := some 0xFF#8 } }
        s.sst.flash = .erasing .clear ∧ s.ofp.clearTag = some 0xFF#8) := by
  refine ⟨by unfold Takes; decide +kernel, ?_, by decide +kernel⟩
  rintro (h | ⟨c, h⟩)
  · exact absurd h (by decide +kernel)
  · cases h

theorem witness_WarmResetLeaves :
    Takes .reset .m 0x37#8 [] (asks .m "RESET" office) ∧ Takes .reset .m 0x37#8 (words "1") (asks .m "RESET 1" office)
      ∧ words "1" ≠ [] ∧ office.sst.runState ≠ .saving ∧ (office.setRunState .saving).sst.runState = .saving
      ∧ Takes .reset .m 0x37#8 [] (asks .m "RESET" (office.setRunState .saving))
      ∧ (office.drop 0).service = .active ∧ (office.drop 5).service = .vacant ∧ (office.unit 511).cfg.kind ≠ .none
      ∧ Table.wf (fun _ => Drop.blank) dark.dtb.drops := by
  unfold Takes; decide +kernel

/-- R136: the warm reset ends drop 0's episode of 5 hours with a CREDIT record, and in a full journal with pending
credit. -/
theorem test_reset_credits :
    let s : State := { dark with tmb := { dark.tmb with run := 18900 } }
    let t := resetOutages s
    let u := resetOutages { s with bjn := { s.bjn with held := List.replicate 4096 ⟨1, 0, false, .period 1⟩ } }
    t.bjn.held.map (fun r => r.body) = [.credit 0 (some 9) (some 65535) (some (50 - 18000)) (some 50) 300 false]
      ∧ ((t.drop 0).pending, (t.drop 0).outage, (t.drop 0).lastEnd) = (0, none, some 18900)
      ∧ (u.bjn.held.length, (u.drop 0).pending) = (4096, 300) := by
  decide +kernel

/-! ### The office line, power-on -/

/-- The characters of a line as they are received, up to the CR. -/
def received (w : String) : Text := ascii w ++ [0x0D#8]

/-- `office` with `n` lines to send. -/
def sending (n : Nat) : State :=
  { office with ofp := { office.ofp with outQ := List.replicate n (.reply .q 0#8 (.ok [])) } }

/-- Lines that are discarded (a framing error, no CR, 201 characters, no lane), and one whose check holds, while places
are free and while none is, at an inbox of 4 lines and at a free one, in LOADING and after. -/
theorem witness_LinesReceived :
    (let good := received "P07 ATTN.READ *64"
     let long := List.replicate 199 0x41#8 ++ [0x0D#8]
     (good.contains lineFeed = false ∧ (ascii "P07 ATTN.READ *64").getLast? ≠ some 0x0D#8 ∧ 200 < long.length + 1
          ∧ readHead (ascii "X07 ATTN.READ *64") = none ∧ good.getLast? = some 0x0D#8 ∧ good.length + 1 ≤ 200
          ∧ readHead good.dropLast = some (.p, 0x07#8, ascii " ATTN.READ *64")
          ∧ good.dropLast = ascii "P07 ATTN.READ" ++ [0x20#8, 0x2A#8, 0x36#8, 0x34#8]
          ∧ hexPair 0x36#8 0x34#8 = some ((ascii "P07 ATTN.READ" ++ [0x20#8]).foldl (fun a b => a ^^^ b) 0#8))
        ∧ (sending 15).ofp.outQ.length < 16 ∧ 16 ≤ (sending 16).ofp.outQ.length ∧ State.reset.sst.runState = .loading
        ∧ office.sst.runState ≠ .loading ∧ (office.ofp.inbox .p).length < 4
        ∧ 4 ≤ (({ office with ofp := office.ofp.setInbox .p (List.replicate 4 ⟨0#8, []⟩) } : State).ofp.inbox .p).length)
      ∧ ∀ pre, ¬∃ c d, (received "P07 ATTN.READ").dropLast = pre ++ [0x20#8, 0x2A#8, c, d]
          ∧ hexPair c d = some ((pre ++ [0x20#8]).foldl (fun a b => a ^^^ b) 0#8) := by
  refine ⟨by decide +kernel, ?_⟩
  rintro pre ⟨c, d, h, _⟩
  have h1 := congrArg List.reverse h
  have h2 : (received "P07 ATTN.READ").dropLast.reverse
      = [0x44#8, 0x41#8, 0x45#8, 0x52#8, 0x2E#8, 0x4E#8, 0x54#8, 0x54#8, 0x41#8, 0x20#8, 0x37#8, 0x30#8, 0x50#8] := by
    decide +kernel
  rw [h2] at h1
  simp at h1

theorem witness_LinesSentAndAppended :
    (let s : State := { office with ofp := { office.ofp with held := some (.reply .m 1#8 (.ok [])) } }
     s.ofp.held = some (.reply .m 1#8 (.ok [])) ∧ s.ofp.outQ.length < 16 ∧ ((raise .link s).attn .link).due = true
       ∧ (raise .link s).ofp.held.isSome = true)
      ∧ ((raise .link (sending 15)).attn .link).due = true ∧ (sending 15).ofp.clearTag = none
      ∧ (sending 15).ofp.held = none ∧ (raise .link (sending 15)).ofp.outQ.length < 16 := by
  decide +kernel

/-- R167: with two places free a notice waits while a deferred reply is held, and goes out after it. -/
theorem test_notice_behind_held_reply :
    let s := raise .link (sending 14)
    let waiting : State := { s with ofp := { s.ofp with held := some (.reply .m 1#8 (.ok [])) } }
    (nextOf (exec .noticeAppend waiting)).map (fun t => t.ofp.outQ.length) = some 14
      ∧ (nextOf (exec .deferredReplyAppend waiting)).map (fun t => (t.ofp.outQ.length, t.ofp.held)) = some (15, none)
      ∧ (nextOf (exec .noticeAppend s)).map (fun t => t.ofp.outQ.getLast?) = some (some (.notice [.link])) := by
  decide +kernel

/-- R177: the header over a body of two bytes, generation 7: version, length, generation and check in turn. -/
theorem test_image_header :
    imageHeader 7 [0x31#8, 0x32#8] = [0#8, 1#8, 0#8, 0#8, 0#8, 2#8, 0#8, 0#8, 0#8, 7#8]
      ++ bytesOf 4 (crc32 [0x31#8, 0x32#8]).toNat := by
  decide +kernel

/-- A header over the one byte 31h, of a format version and a generation, with the byte's check. -/
def headed (version generation : Nat) : List Byte :=
  bytesOf 2 version ++ bytesOf 4 1 ++ bytesOf 4 generation ++ bytesOf 4 (crc32 [0x31#8]).toNat

/-- The part in LOADING, over what is known of the flash. -/
def loadingFrom (h : FlashHeld) : State := { State.reset with sst := { State.reset.sst with held := h } }

/-- A header that holds, with its body of one byte and generation 7, a blank one, and one of generation 7 over a body that a
save writes; contents that fit and contents that do not; and every state of the flash. -/
theorem witness_PowerOnAndLoad :
    ((State.reset.sst.runState = .loading ∧ State.reset.aen.waves = [] ∧ (headed 1 7).length = 14
          ∧ ¬(∀ b ∈ headed 1 7, b = 0xFF#8) ∧ headerNumber (headed 1 7) 0 2 = 1 ∧ headerNumber (headed 1 7) 2 4 = 1
          ∧ (crc32 [0x31#8]).toNat = headerNumber (headed 1 7) 10 4 ∧ headerNumber (headed 1 7) 6 4 = 7)
        ∧ ((List.replicate 14 0xFF#8).length = 14 ∧ ∀ b ∈ List.replicate 14 0xFF#8, b = 0xFF#8)
        ∧ imageFits (snapshot office) = true ∧ imageFits blankImage = true
        ∧ imageFits { blankImage with period := 0 } = false)
      ∧ (∀ i, (imageRead 7 i).header.length = 14) ∧ ∀ h, (loadingFrom h).sst.held = h :=
  ⟨by decide +kernel, fun _ => by simp [imageRead, imageHeader, bytesOf], fun _ => rfl⟩

/-- R178 to R181: what is read decides, a complete image's flash included (another image loads, and a wrong format version
is INVALID, after which no image is known); it does not bring back an image that a save in progress or a clear has taken. -/
theorem test_load_by_what_is_read :
    let after := fun (version : Nat) (h : FlashHeld) =>
      (nextOf (exec (.loadEnd ⟨headed version 7, [0x31#8], some blankImage⟩) (loadingFrom h))).map fun t =>
        (t.sst.loadResult, t.sst.generation, t.sst.held)
    after 1 .asAttached = some (.loaded, 7, .image 7 blankImage)
      ∧ after 1 (.image 9 blankImage) = some (.loaded, 7, .image 7 blankImage)
      ∧ after 2 (.image 9 blankImage) = some (.invalid, 0, .asAttached)
      ∧ after 1 .torn = some (.invalid, 0, .torn) ∧ after 1 .erased = some (.blank, 0, .erased) := by
  decide +kernel

/-! ### Slots, seconds and counters -/

/-- `office` between the slots 7 and 8, at a phase, in a run state. -/
def between (r : RunState) (phase : Nat) : State :=
  let s := office.setRunState r
  { s with csc := { s.csc with slotNumber := some 7 }, tmb := { s.tmb with phase := phase } }

/-- `between` behind the boundary that completed a second: the phase is 0 again, and a second advance is due. -/
def elapsed (r : RunState) : State :=
  let s := between r 0
  { s with tmb := { s.tmb with advanceDue := true } }

theorem witness_BoundaryOutsideRun :
    NothingOwed (between .standby 249) ∧ (between .standby 249).tmb.advanceDue = false
      ∧ (between .standby 249).sst.runState ≠ .run ∧ (between .standby 249).csc.windows = []
      ∧ (between .stopping 0).sst.runState = .stopping := by
  unfold NothingOwed; decide +kernel

/-- In RUN: an idle carousel; an override whose ALERT is ready; the carousel; a drop at the head of the queue; a poll; a
refresh that is due. -/
theorem witness_GrantInRun :
    (let s := between .run 249
     (NothingOwed s ∧ s.tmb.advanceDue = false ∧ s.sst.runState = .run ∧ s.csc.windows = [] ∧ s.nextEntry = some 0)
        ∧ (let q : State := { s with crs := { s.crs with mode := .stopped } }
          NothingOwed q ∧ q.lur.override.active = false ∧ q.nextEntry = none ∧ q.offered .authorize = none
            ∧ q.offered .poll = none ∧ q.offered .refresh = none)
        ∧ (let q := s.setOverride ⟨true, 47, 1, 9, 1010, 1005, true⟩
          NothingOwed q ∧ q.lur.override.active = true ∧ q.lur.override.ready = true)
        ∧ (let q := s.setQueue [⟨0, false⟩]
          NothingOwed q ∧ q.offered .authorize = some 0x10#24 ∧ (q.drop 0).address = some 0x10#24)
        ∧ (let q : State := { s with ppl := { s.ppl with running := true, poll := some ⟨511, 0x200, 2, 1, false, 0, false⟩ } }
          NothingOwed q ∧ q.offered .poll = some 0x200#24)
        ∧ (let q : State := { s with rsw := { s.rsw with request := true } }
          NothingOwed q ∧ q.offered .refresh = some 0x10#24 ∧ q.candidate = some 0
            ∧ (q.drop 0).link = some .settled)) := by
  unfold NothingOwed; decide +kernel

/-- The last window of a part in STOPPING closes at this boundary, on drop 0. -/
def lastWindow (r : Drop) (q : List QEntry) : State :=
  let s := (between .stopping 100).setDrop 0 r
  { s with csc := { s.csc with windows := [⟨0x10, .auth, 0, 4, 7⟩] }, aen := { s.aen with queue := q } }

/-- Two windows close at this boundary: one of a kind on drop 0, which was SETTLED before a refresh, and the last attempt's
on unit 511, which has missed two cycles. -/
def missing (st : RunState) (kind : WindowKind) (r : Drop) : State :=
  let s := ((between st 100).setDrop 0 r).setUnit 511
    { amp .bridger (some 0) 0x200 .missing with missed := 2, missingSince := some 900 }
  { s with
    csc := { s.csc with windows := [⟨0x10, kind, 0, 4, 7⟩, ⟨0x200, .poll, 511, 4, 7⟩] }
    rsw := { s.rsw with outstanding := [⟨0, .settled⟩] }
    ppl := { s.ppl with running := true, cursor := 511, poll := some ⟨511, 0x200, 2, 2, true, 990, false⟩ } }

theorem witness_LastMissInStopping :
    let r := served 0x10 511 .awaiting
    let fits := fun s : State => NothingOwed s ∧ s.tmb.advanceDue = false ∧ s.sst.runState = .stopping
      ∧ s.csc.windows = [⟨0x10, .auth, 0, 4, 7⟩] ∧ some (7 : Word) = s.csc.slotNumber
    fits (lastWindow r []) ∧ (lastWindow Drop.blank []).drop 0 = Drop.blank
      ∧ (lastWindow { r with parkOnClose := true } []).drop 0 = { r with parkOnClose := true }
      ∧ r.attempts < office.params.authTries ∧ r.outage = none ∧ ({ r with outage := some 1 } : Drop).outage ≠ none
      ∧ ¬(({ r with attempts := 3 } : Drop).stale = true ∨ ({ r with attempts := 3 } : Drop).attempts < office.params.authTries)
      ∧ fits (lastWindow r (List.replicate 64 ⟨1, false⟩)) ∧ (List.replicate 64 (⟨1, false⟩ : QEntry)).length = 64
      ∧ (NothingOwed (missing .run .auth r) ∧ (missing .run .auth r).tmb.advanceDue = false
        ∧ (missing .run .auth r).sst.runState = .run ∧ (missing .run .auth r).dueWindows.length = 2
        ∧ (missing .saving .auth r).sst.runState ≠ .run)
      ∧ ((missing .run .refresh r).rsw.outstanding.find? (fun o => o.drop == 0) = some ⟨0, .settled⟩
        ∧ ¬(2 ≤ min 15 (r.misses + 1)) ∧ 2 ≤ min 15 (({ r with misses := 1 } : Drop).misses + 1))
      ∧ (missing .run .auth r).ppl.poll.map (fun p => (p.windowOpen, p.unit, p.address, p.attempt, p.allowed))
        = some (true, 511, 0x200#24, 2, 2) := by
  unfold NothingOwed; decide +kernel

/-- R93: a refresh miss gives the drop back the link state before the send; R114: the second miss of a poll of a unit that
has missed two cycles makes it SILENT, with a record of its own, and the cycle goes on behind it. -/
theorem test_misses_in_run :
    let t := closeWindows (missing .run .refresh (served 0x10 511 .awaiting))
    ((t.drop 0).link, (t.drop 0).misses) = (some .settled, 1) ∧ ((t.unit 511).state, (t.unit 511).missed) = (.silent, 3)
      ∧ t.olz.log.map (fun o => o.root) = [511] ∧ (t.ppl.poll, t.ppl.cursor) = (none, 512) ∧ t.rsw.outstanding = []
      ∧ t.csc.windows = [] := by
  decide +kernel

theorem witness_SecondsAndCycles :
    (NothingOwed (elapsed .run) ∧ (elapsed .run).tmb.advanceDue = true ∧ (elapsed .run).tmb.timeSet = true
        ∧ (elapsed .saving).sst.runState = .saving)
      ∧ (let s : State := { office with rsw := { office.rsw with counter := 49 } }
        s.sst.runState ≠ .loading ∧ s.rsw.counted = false ∧ s.params.refreshStep ≤ s.rsw.counter + 1)
      ∧ (let s := office.setRunState .run
        let q : State := { s with ppl := { s.ppl with timer := 60 } }
        q.sst.runState = .run ∧ q.params.pollCycle ≤ q.ppl.timer)
      ∧ (let s := polling false false
        let q : Nat → State := fun n => { s with ppl := { s.ppl with poll := none, cursor := n } }
        (q 511).sst.runState = .run ∧ (q 511).ppl.running = true ∧ (q 511).ppl.poll = none ∧ (q 511).ppl.cursor < 512
          ∧ ((q 511).unit 511).cfg.kind = .bridger ∧ ((q 511).unit 511).cfg.inService = true
          ∧ ((q 511).unit 511).state ≠ .excused ∧ ((q 511).unit 511).cfg.address = some 0x200#24
          ∧ ((q 1).unit 1).cfg.kind = .none ∧ 512 ≤ (q 512).ppl.cursor) := by
  unfold NothingOwed; decide +kernel

/-- The start-up window at its last sample and at its close; the selection after it. -/
theorem witness_ReferenceMonitor :
    let at' := fun (c : ClockSel) (edge : Bool) (good : Nat) (open' : Bool) (samples : Nat) =>
      ({ office with tmb := { office.tmb with
          clock := c, edge := edge, goodRun := good, startup := open', startupSamples := samples } } : State)
    ((at' .reference true 1000 false 1000).tmb.clock = .reference ∧ (at' .reference true 1000 false 1000).tmb.startup = false
        ∧ (at' .reference true 1000 false 1000).tmb.edge = true ∧ (at' .reference false 1000 false 1000).tmb.edge = false)
      ∧ ((at' .internal true 999 true 999).tmb.startup = true ∧ (at' .internal true 999 true 999).tmb.startupSamples < 1000)
      ∧ ((at' .internal true 1000 true 1000).tmb.startup = true ∧ 1000 ≤ (at' .internal true 1000 true 1000).tmb.startupSamples)
      ∧ ((at' .internal true 999 false 1000).tmb.goodRun < 1000 ∧ 1000 ≤ (at' .internal true 1000 false 1000).tmb.goodRun
        ∧ (at' .internal true 1000 false 1000).tmb.clock = .internal) := by
  decide +kernel

/-! ### Upstream and the matrix -/

/-- `between .run 0` with a window on drop 0 and one on unit 511, opened in slot 5. -/
def awaiting (kind : WindowKind) : State :=
  let s := (between .run 0).setDrop 0 { served 0x10 511 .awaiting with attempts := 1 }
  { s with csc := { s.csc with windows := [⟨0x10, kind, 0, 5, 8⟩, ⟨0x200, .poll, 511, 5, 8⟩] } }

theorem witness_UpstreamStrays :
    let s := awaiting .auth
    let f := fun (kind : Byte) (a : Addr) (body : List Byte) => (⟨kind, a, body⟩ : Frame)
    State.reset.sst.runState = .loading ∧ s.sst.runState ≠ .loading ∧ s.urx.stray = none
      ∧ (IsStray (f 0x83#8 0x10 []) s .foreign ∧ IsStray (f 0x81#8 0x10 [0#8, 0#8]) s .form
        ∧ IsStray (f 0x81#8 0x11 [255#8]) s .noWindow)
      ∧ IsStray (f 0x81#8 0x10 [0#8]) { s with csc := { s.csc with slotNumber := some 5 } } .early
      ∧ IsStray (f 0x81#8 0x200 [0#8]) s .kind := by
  refine ⟨by decide +kernel, by decide +kernel, by decide +kernel,
    ⟨⟨by decide, by decide⟩, ⟨by decide, fun h => absurd h.2 (by decide), ?_⟩, ?_⟩, ?_, ?_⟩
  · rintro ⟨h, _⟩; exact absurd h (by decide)
  · exact ⟨.inl ⟨rfl, rfl⟩, by decide +kernel⟩
  · exact ⟨.inl ⟨rfl, rfl⟩, ⟨0x10, .auth, 0, 5, 8⟩, by decide +kernel, by decide +kernel⟩
  · exact ⟨⟨0x200, .poll, 511, 5, 8⟩, by decide +kernel, by decide +kernel, .inl ⟨⟨rfl, rfl⟩, rfl⟩⟩

/-- Drop 0 awaits an answer; event 1 is SHOWING and may be bought; unit 511 is under poll and answers. -/
theorem witness_UpstreamAnswers :
    let w : Window := ⟨0x10, .auth, 0, 5, 8⟩
    let shows := (awaiting .auth).setEvent 31 (some ⟨⟨1, 2, 1, 10, 20, 300, 5, false⟩, .showing, false, false⟩)
    let polled := ((awaiting .auth).setUnit 511 (amp .bridger (some 0) 0x200 .unknown))
    let p : State := { polled with ppl := { polled.ppl with
      running := true, cursor := 511, poll := some ⟨511, 0x200, 2, 1, true, 990, false⟩ } }
    (AwaitsAnswer w (awaiting .auth) ∧ w.kind ≠ .poll ∧ ((awaiting .auth).drop 0).stale = false
        ∧ ((awaiting .auth).drop 0).service ≠ .vacant)
      ∧ (AwaitsAnswer w shows ∧ (shows.drop 0).service = .active ∧ (shows.drop 0).outage = none
        ∧ shows.pin.mode = .normal ∧ shows.bjn.held.length < 3840
        ∧ (shows.findEvent 1).map (fun x => x.2.state) = some .showing ∧ (shows.drop 0).events = []
        ∧ shows.aen.queue = [])
      ∧ AwaitsAnswer ⟨0x200, .poll, 511, 5, 8⟩ p ∧ p.sst.runState = .run
      ∧ p.ppl.poll.map (fun x => (x.windowOpen, x.unit, x.address, x.heldChange)) = some (true, 511, 0x200#24, false)
      ∧ ((p.unit 511).state = .unknown ∧ (2#8).toNat ≤ 2 ∧ -30 ≤ (0xE2#8).toInt ∧ (50#8).toInt ≤ 50)
      ∧ (let stale := (awaiting .refresh).setDrop 0 { (awaiting .refresh).drop 0 with stale := true }
        AwaitsAnswer ⟨0x10, .refresh, 0, 5, 8⟩ stale ∧ (stale.drop 0).stale = true ∧ (stale.drop 0).outage = none
          ∧ stale.aen.queue.length < 64
          ∧ 64 ≤ (stale.setQueue (List.replicate 64 ⟨1, false⟩)).aen.queue.length)
      ∧ (verdictOn 0 1 shows = .taken ∧ verdictOn 0 2 shows = .denied
        ∧ verdictOn 0 1 { shows with pin := ⟨.defer⟩ } = .deferred
        ∧ verdictOn 0 1 (shows.setDrop 0 { shows.drop 0 with events := [1] }) = .repeated
        ∧ verdictOn 0 1 (shows.setQueue (List.replicate 64 ⟨1, false⟩)) = .deferred) := by
  unfold AwaitsAnswer; decide +kernel

/-- R98 to R100: what each outcome of a purchase leaves of the drop, the queue, the journal and PURCHASE attention. -/
theorem test_purchase_outcomes :
    let s := (office.setEvent 31 (some ⟨⟨1, 2, 1, 10, 20, 300, 5, false⟩, .showing, false, false⟩)).setQueue [⟨2047, false⟩]
    let seen := fun t : State => (t.aen.queue.map (fun e => (e.drop, e.urgent)), (t.drop 0).events, t.bjn.held.length,
      (t.attn .purchase).pending)
    seen (purchase 0 1 s) = ([(0, true), (2047, false)], [1], 1, true)
      ∧ seen (purchase 0 1 (s.setDrop 0 { s.drop 0 with events := [1] })) = ([(0, true), (2047, false)], [1], 0, false)
      ∧ seen (purchase 0 2 s) = ([(0, true), (2047, false)], [], 0, true)
      ∧ seen (purchase 0 1 { s with pin := ⟨.defer⟩ }) = ([(2047, false)], [], 0, false)
      ∧ seen (purchase 0 0 s) = ([(2047, false)], [], 0, false) := by
  decide +kernel

/-- Slots 1 and 2 use source 1, which is LOST at its last miss, and comes back at its last good sample. -/
theorem witness_MatrixPort :
    (let s : State := { office with mxp := ⟨[⟨1, 4⟩], none, true, .order⟩ }
     s.sst.runState ≠ .loading ∧ s.mxp.flight = none ∧ s.mxp.queue ≠ [] ∧ s.mxp.readDue = true ∧ s.mxp.last = .order)
      ∧ (office.mxp.queue = [] ∧ office.mxp.readDue = false ∧ office.mxp.last = .read)
      ∧ (let s := (office.setSource 1 ⟨⟨.satellite, true⟩, .doubtful, 4, 0⟩)
        let r : State := { s with mxp := ⟨[], some .read, false, .read⟩ }
        r.mxp.flight = some .read ∧ (sampledSource r.params false (r.source 1)).presence = .lost
          ∧ (r.slot 1).cfg.enabled = true ∧ (r.slot 1).cfg.primary = 1 ∧ (r.slot 1).latch = false)
      ∧ (sampledSource office.params true ⟨⟨.satellite, true⟩, .returning, 0, 19⟩).presence = .present
      ∧ (List.replicate 48 (0#8 : Byte)).length = 48
      ∧ ((office.slot 1).cfg.primary ≠ 0 ∧ (47 : Nat) ≠ 0 ∧ (alerting.lur.override.source = 47))
      ∧ (∀ n, ({ office with mxp := ⟨[], some (.order 80 47 n), false, .order⟩ } : State).mxp.flight = some (.order 80 47 n)) := by
  refine ⟨by decide +kernel, by decide +kernel, by decide +kernel, by decide +kernel, by decide, by decide +kernel,
    fun n => rfl⟩

/-- R33: the bytes of a switch order and of a read. R7, R18: the loss of a source latches the slots whose primary it is, a
disabled one too, and raises EMERGENCY when the override runs on it. -/
theorem test_matrix_bytes_and_loss :
    (Flight.bytes (.order 80 47 2) = [0x01#8, 0x50#8, 0x2F#8] ∧ Flight.bytes .read = [0x02#8])
      ∧ (let s := alerting.setSlot 80 { alerting.slot 80 with cfg := { (alerting.slot 80).cfg with primary := 47 } }
        let t := sourceLost 47 true s
        ((t.slot 80).latch, (t.attn .fallback).pending, (t.attn .emergency).pending) = (true, true, true)
          ∧ t.mxp.queue.map (fun o => (o.slot, o.source)) = [(1, 47), (2, 47)]) := by
  decide +kernel

/-! ### Background passes, frames -/

/-- `office` with a wave at its head and perhaps a full queue. -/
def waving (w : Wave) (r : Drop) (q : List QEntry) (paused : Bool) : State :=
  { office.setDrop 2047 r with aen := ⟨q, [w, ⟨.all, false, 0⟩], paused, false⟩ }

theorem witness_WaveEngine :
    let r := { served 0x20 0 .settled with events := [1] }
    let q56 : List QEntry := List.replicate 56 ⟨0, false⟩
    let last : Wave := ⟨.event 1, true, 2047⟩
    (waving ⟨.event 1, true, 2047⟩ r q56 true).oweWaveVisit.aen.owed = true
      ∧ Advances (waving ⟨.all, false, 0⟩ r [] true) ∧ (waving ⟨.all, false, 0⟩ r [] true).olz.paused = false
      ∧ (waving last r [] false).drop 2047 = r ∧ (1 ∈ r.events ∧ r.service = .active ∧ r.outage = none)
      ∧ (Drop.blank.service = .vacant ∧ ({ r with service := .suspended } : Drop).service ≠ .active)
      ∧ (∀ k : Link, ((waving last { r with link := some k } [] false).drop 2047).link = some k)
      ∧ (({ r with outage := some 1 } : Drop).outage ≠ none ∧ 56 ≤ (waving last r q56 false).aen.queue.length)
      ∧ (((2#16 ||| 1#16) &&& 1#16) ≠ 0#16)
      ∧ Advances (waving ⟨.event 1, true, 2048⟩ r [] false) := by
  refine ⟨rfl, by unfold Advances; decide +kernel, rfl, by decide +kernel, by decide, by decide, ?_, by decide +kernel, by decide,
    by unfold Advances; decide +kernel⟩
  intro k
  cases k <;> decide +kernel

/-- R66: both paused, the settle pass takes the one place, and the wave engine visits its drop afresh at 56 entries; a drop
that needs no place any more is passed. -/
theorem test_owed_visit :
    let s := waving ⟨.event 1, true, 2047⟩ { served 0x20 0 .settled with service := .suspended } (List.replicate 55 ⟨9, false⟩)
      true
    let s := (s.setDrop 0 { s.drop 0 with link := some .parked })
    let q : State := { s with olz := { s.olz with taken := [(1, true)], cursor := 0, paused := true } }
    (nextOf (exec .waveVisit q)).map (fun t => t.aen.paused) = some true
      ∧ ((nextOf (exec .settleVisit q)).bind fun t => (nextOf (exec .waveVisit t)).map fun u =>
          (t.aen.queue.length, t.aen.owed, u.aen.owed, u.aen.paused, u.aen.waves.map fun w => w.cursor))
        = some (56, true, false, false, [2048, 0]) := by
  decide +kernel

/-- A pass that has taken the record of `dark` stands at drop 0, which carries another; and stands behind the table. -/
theorem witness_SettlePass :
    (let s : State := { dark with olz := { dark.olz with settle := [65535] } }
     Advances s ∧ s.olz.taken = [] ∧ s.olz.settle ≠ [])
      ∧ (let s := office.setDrop 0 { office.drop 0 with outage := some 1, link := some .parked }
        let q : State := { s with olz := { s.olz with taken := [(1, true)], cursor := 0 } }
        Advances q ∧ q.olz.taken ≠ [] ∧ q.olz.cursor < 2048 ∧ q.olz.paused = false ∧ (q.drop 0).service ≠ .vacant
          ∧ q.proper 0 = none ∧ (q.drop 0).outage = some 1 ∧ (q.drop 1).service = .vacant
          ∧ (let u := transition 0 (q.proper 0) q
            (u.drop 0).link = some .parked ∧ (u.drop 0).outage = none ∧ u.aen.queue.length < 56))
      ∧ (let s : State := { office with olz := { office.olz with taken := [(1, true)], cursor := 2048 } }
        Advances s ∧ 2048 ≤ s.olz.cursor ∧ s.olz.taken ≠ [])
      ∧ ∀ u, (office.unit u).unlogged = false := by
  refine ⟨by unfold Advances; decide +kernel, by unfold Advances; decide +kernel, by unfold Advances; decide +kernel, ?_⟩
  exact fun u => all_units office (fun _ r => r.unlogged = false) (fun _ => rfl) (by decide +kernel) u

theorem witness_AuthorizationContent :
    (office.drop 0).service = .active ∧ (office.drop 2047).service = .suspended
      ∧ ({ office.drop 0 with service := .closing } : Drop).service = .closing := by
  decide +kernel

/-! ## One step of the events -/

/-- The request of 10.1 arrives in STANDBY and waits in its inbox; in LOADING it is answered ERR LOADING. -/
theorem test_line_received :
    (nextOf (exec (.lineReceived (received "P07 ATTN.READ *64") false) office)).map (fun t => t.ofp.inboxP)
        = some [⟨0x07#8, ascii " ATTN.READ"⟩]
      ∧ said (exec (.lineReceived (received "P07 ATTN.READ *64") false) State.reset) = some (ascii " ERR LOADING")
      ∧ said (exec (.lineReceived (received "P07 ATTN.READ *65") false) office) = some (ascii " ERR CHECK") := by
  decide +kernel

/-- A blank flash: the part enters STANDBY with the blank tables, and an ALL wave runs. -/
theorem test_load_of_a_blank_flash :
    (nextOf (exec (.loadEnd ⟨List.replicate 14 0xFF#8, [], none⟩) State.reset)).map
        (fun t => (t.sst.runState, t.sst.loadResult, t.sst.imageValid, t.aen.waves))
      = some (.standby, .blank, false, [⟨.all, true, 0⟩]) := by
  decide +kernel

/-- An ACK for drop 0 settles it; the same frame once more is a stray. -/
theorem test_upstream_ack :
    (nextOf (exec (.upstreamFrame (Frame.bytes ⟨0x81#8, 0x10, [0#8]⟩)) (awaiting .auth))).map
        (fun t => ((t.drop 0).link, t.csc.windows.length, t.urx.stray))
      = some (some .settled, 1, none)
      ∧ (nextOf (exec (.upstreamFrame (Frame.bytes ⟨0x81#8, 0x11, [0#8]⟩)) (awaiting .auth))).map
        (fun t => (t.urx.stray.map fun x => x.cause, (t.attn .stray).pending)) = some (some .noWindow, true) := by
  decide +kernel

/-- The 250th boundary sets the phase to 0 and makes a second advance due (R154). -/
theorem test_phase_wraps :
    (nextOf (exec .slotBoundary (between .standby 249))).map (fun t => (t.tmb.phase, t.tmb.advanceDue, t.tmb.run))
        = some (0, true, 1000)
      ∧ (nextOf (exec .slotBoundary (between .standby 248))).map (fun t => (t.tmb.phase, t.tmb.advanceDue))
        = some (249, false) := by
  decide +kernel

/-- A second passes: run and station time rise, and the event at its start time shows. -/
theorem test_second_advance :
    (nextOf (exec .secondAdvance { elapsed .run with
        tmb := { (elapsed .run).tmb with station := 199, phase := 3 } })).map
        (fun t => (t.tmb.station, t.tmb.run, t.tmb.phase, t.tmb.advanceDue, (t.event 0).map fun e => e.state))
      = some (200, 1001, 3, false, some .showing) := by
  decide +kernel

/-- The drain of drop 5's credit writes one record and clears the drop. -/
theorem test_drain_visit :
    (nextOf (exec .drainVisit { booked with bjn := { booked.bjn with drainCursor := 5 } })).map
        (fun t => (t.bjn.held.length, t.bjn.nextSeq, t.bjn.drainCursor, t.drop 5 == Drop.blank))
      = some (4, 3, 6, true) := by
  decide +kernel

end Sys2Proof.Tests
end

/-! PROOFS. The channel line-up: SLOT.SET and SLOT.RESTORE, EVENT.ADD, EVENT.CANCEL and EVENT.DELETE (O24 to O26). First
the rules about records, pages, resolution and the matrix queue that the verbs share, then one section for each family
of verbs. -/

namespace Sys2Proof.Proofs

open Sys2Proof Sys2Proof.Machine Sys2Proof.Laws

/-! ## Records that are listed -/

theorem get_of_not_mem_keys {α : Type} (b : Nat → α) {t : Table α} {k : Nat} (h : k ∉ Table.keys t) :
    Table.get b t k = b k := by
  suffices hf : Table.find t k = none by simp [Table.get, hf]
  induction t with
  | nil => rfl
  | cons e t ih =>
    simp only [Table.keys, List.map_cons, List.mem_cons, not_or] at h ih
    simp [Table.find, Ne.symm h.1, ih h.2]

theorem mem_slotKeys_of_enabled {s : State} {k : Nat} (h : (s.slot k).cfg.enabled = true) : k ∈ s.slotKeys := by
  by_contra hk
  rw [State.slot, get_of_not_mem_keys Slot.blank hk] at h
  exact absurd h (by simp [Slot.blank, SlotCfg.blank])

theorem mem_eventEntries {s : State} {k : Nat} {e : Event} : (k, e) ∈ s.eventEntries ↔ s.event k = some e := by
  simp only [State.eventEntries, List.mem_filterMap, Option.map_eq_some_iff, Prod.mk.injEq]
  constructor
  · rintro ⟨_, _, _, he, rfl, rfl⟩
    exact he
  · intro he
    refine ⟨k, ?_, e, he, rfl, rfl⟩
    by_contra hk
    rw [State.event, get_of_not_mem_keys (fun _ => none) hk] at he
    cases he

theorem any_eventEntries {s : State} {f : Event → Bool} :
    (s.eventEntries.any fun e => f e.2) = true ↔ ∃ n e, s.event n = some e ∧ f e = true := by
  simp only [List.any_eq_true, Prod.exists, mem_eventEntries]

theorem findEvent_isSome {s : State} {id : Nat} :
    (s.findEvent id).isSome = true ↔ ∃ n e, s.event n = some e ∧ e.cfg.id = id := by
  simp only [State.findEvent, List.find?_isSome, Prod.exists, mem_eventEntries, beq_iff_eq]

theorem slot_congr {s t : State} (h : t.lur = s.lur) : t.slot = s.slot := by
  funext k
  simp only [State.slot, h]

theorem event_congr {s t : State} (h : t.lur.events = s.lur.events) : t.event = s.event := by
  funext k
  simp only [State.event, h]

/-! ## What a read gives after the dispatch's own changes -/

@[simp] theorem slot_popLine (l : Lane) (s : State) (k : Nat) : (popLine l s).slot k = s.slot k := rfl
@[simp] theorem usable_popLine (l : Lane) (s : State) (k : Nat) : (popLine l s).usable k = s.usable k := rfl
@[simp] theorem attn_popLine (l : Lane) (s : State) (k : Kind) : (popLine l s).attn k = s.attn k := by cases l <;> rfl

theorem saving_popLine {l : Lane} {s : State} : (popLine l s).saving = true ↔ s.sst.runState = .saving := by
  simp [State.saving]

/-- BUSY, then ARGS, then the rest of a dispatched verb's answer. -/
theorem parsed_of_act {α : Type} {c : Instr} {v : Verb} {l : Lane} {tag : Byte} {args : List Text} {s : State}
    {act : List Text → State → State × Reply} {read : Option α} {ok : α → Prop} (hc : exec c s = dispatch v l act s)
    (h : Takes v l tag args s)
    (hbusy : (popLine l s).saving = true → act args (popLine l s) = refuse .busy (popLine l s))
    (hargs : (popLine l s).saving = false → read = none → act args (popLine l s) = refuse .args (popLine l s))
    (hok : ∀ a, (popLine l s).saving = false → read = some a → ok a) : Parsed c l tag s read ok := by
  have idle : s.sst.runState ≠ .saving → (popLine l s).saving = false := fun hs =>
    Bool.eq_false_iff.mpr fun hp => hs (saving_popLine.mp hp)
  exact ⟨fun hs => refuses_of_effect hc h (hbusy (saving_popLine.mpr hs)),
    fun hs hr => refuses_of_effect hc h (hargs (idle hs) hr), fun a hs ha => hok a (idle hs) ha⟩

theorem one_eq_some {α : Type} {f : Text → Option α} {args : List Text} {x : α} :
    one f args = some x ↔ ∃ a, args = [a] ∧ f a = some x := by
  rcases args with _ | ⟨a, _ | ⟨b, rest⟩⟩ <;> simp [one]

/-! ## The matrix queue -/

/-- A second order for a slot takes the place of the first (R32). -/
theorem putOrderIn_putOrderIn (k x y : Nat) (q : List Order) :
    putOrderIn k x (putOrderIn k y q) = putOrderIn k x q := by
  unfold putOrderIn
  by_cases hk : (q.any fun o => o.slot == k) = true
  · have hmap : ((q.map fun o => if o.slot = k then { o with source := y } else o).any fun o => o.slot == k) = true := by
      obtain ⟨o, ho, hs⟩ := List.any_eq_true.mp hk
      have hs : o.slot = k := by simpa using hs
      exact List.any_eq_true.mpr ⟨_, List.mem_map_of_mem ho, by simp [hs]⟩
    simp only [hk, if_true, hmap, List.map_map]
    refine List.map_congr_left fun o _ => ?_
    by_cases ho : o.slot = k <;> simp [ho]
  · have hno : ∀ o ∈ q, o.slot ≠ k := by simpa using hk
    have hmap : (q.map fun o => if o.slot = k then { o with source := x } else o) = q :=
      (List.map_congr_left fun o ho => if_neg (hno o ho)).trans (List.map_id q)
    simp [hk, hmap]

/-- The orders of one slot, however often it is listed, are one order. -/
theorem ordersPut_eq {ks : List Nat} {k : Nat} (t : State) (q : List Order) (hks : ∀ j ∈ ks, j = k) :
    ordersPut ks t q = if ks = [] then q else putOrderIn k (t.slot k).resolved q := by
  induction ks generalizing q with
  | nil => rfl
  | cons j ks ih =>
    obtain ⟨rfl, hks⟩ : j = k ∧ ∀ i ∈ ks, i = k := by simpa using hks
    have := ih (putOrderIn j (t.slot j).resolved q) hks
    simp only [ordersPut, List.foldl_cons, reduceCtorEq, if_false] at this ⊢
    rw [this, putOrderIn_putOrderIn, ite_self]

/-! ## Pages (R20) -/

@[simp] theorem mapPageHeld_rebuildMap (p n : Nat) (s : State) :
    (rebuildMap p s).mapPageHeld n = if n = p then mapPage s p else s.mapPageHeld n :=
  get_set (fun _ => []) s.crs.mapPages n p (mapPage s p)

@[simp] theorem eventPageHeld_rebuildEvents (p n : Nat) (s : State) :
    (rebuildEvents p s).eventPageHeld n = if n = p then eventPage s p else s.eventPageHeld n :=
  get_set (fun _ => []) s.crs.eventPages n p (eventPage s p)

theorem mapPage_congr {s t : State} (h : t.lur = s.lur) (n : Nat) : mapPage t n = mapPage s n := by
  unfold mapPage mapEntry
  rw [slot_congr h]

theorem eventPage_congr {s t : State} (h : t.lur.events = s.lur.events) (n : Nat) : eventPage t n = eventPage s n := by
  simp only [eventPage, pageEvent, event_congr h]

theorem pagesOnly_rebuildMap {s t : State} (p : Nat) (h : PagesOnly s t) : PagesOnly s (rebuildMap p t) := by
  unfold PagesOnly rebuildMap at *
  rw [h]

theorem pagesOnly_rebuildEvents {s t : State} (p : Nat) (h : PagesOnly s t) : PagesOnly s (rebuildEvents p t) := by
  unfold PagesOnly rebuildEvents at *
  rw [h]

/-- The EVENTS page `n` is rebuilt last, and of the EVENTS pages nothing else is touched. -/
theorem rebuiltEvents_of {n : Nat} {s u t : State} (hu : u.crs.eventPages = s.crs.eventPages)
    (hc : t.crs.eventPages = (rebuildEvents n u).crs.eventPages) (hl : t.lur.events = u.lur.events) :
    RebuiltEvents n s t := by
  intro m
  have hm : t.eventPageHeld m = (rebuildEvents n u).eventPageHeld m := by simp only [State.eventPageHeld, hc]
  rw [hm, eventPageHeld_rebuildEvents, eventPage_congr hl]
  simp only [State.eventPageHeld, hu]

/-! ## Resolving one slot again (R5, R6) -/

theorem usable_congr {s t : State} (h : t.smn = s.smn) : t.usable = s.usable := by
  unfold State.usable State.source
  rw [h]

theorem showingOn_congr {s t : State} (h : t.lur.events = s.lur.events) : t.showingOn = s.showingOn := by
  unfold State.showingOn State.eventEntries
  rw [event_congr h, h]

/-- The resolution of a slot depends on its configuration and latch, the events, the override and the sources. -/
theorem resolution_congr {s t : State} {k : Nat} (hc : (t.slot k).cfg = (s.slot k).cfg)
    (hl : (t.slot k).latch = (s.slot k).latch) (he : t.lur.events = s.lur.events)
    (ho : t.lur.override = s.lur.override) (hs : t.smn = s.smn) : resolution t k = resolution s k := by
  unfold resolution orSlate
  dsimp only
  rw [hc, hl, ho, usable_congr hs, showingOn_congr he]

theorem resolved_congr {s t : State} {k : Nat} (h : Resolved k s) (hl : t.lur = s.lur) (hs : t.smn = s.smn) :
    Resolved k t := by
  have hk : t.slot k = s.slot k := by rw [slot_congr hl]
  simpa only [Resolved, resolution_congr (congrArg Slot.cfg hk) (congrArg Slot.latch hk) (congrArg Lur.events hl)
    (congrArg Lur.override hl) hs, hk] using h

section ResolveSlot

variable (k : Nat) (s : State)

theorem resolveSlot_lur : (resolveSlot k s).lur = (storeResolution k s).lur := by
  unfold resolveSlot
  dsimp only
  split_ifs <;> rfl

@[simp] theorem resolveSlot_smn : (resolveSlot k s).smn = s.smn := by
  unfold resolveSlot
  dsimp only
  split_ifs <;> rfl

@[simp] theorem resolveSlot_aen : (resolveSlot k s).aen = s.aen := by
  unfold resolveSlot
  dsimp only
  split_ifs <;> rfl

@[simp] theorem resolveSlot_ofp : (resolveSlot k s).ofp = s.ofp := by
  unfold resolveSlot
  dsimp only
  split_ifs <;> rfl

@[simp] theorem resolveSlot_events : (resolveSlot k s).lur.events = s.lur.events := by
  rw [resolveSlot_lur]; rfl

@[simp] theorem resolveSlot_override : (resolveSlot k s).lur.override = s.lur.override := by
  rw [resolveSlot_lur]; rfl

@[simp] theorem resolveSlot_slot (j : Nat) : (resolveSlot k s).slot j =
    if j = k then { s.slot k with resolved := (resolution s k).1, step := (resolution s k).2 } else s.slot j := by
  rw [slot_congr (resolveSlot_lur k s)]
  exact slot_setSlot s k j _

/-- An enabled slot whose source changes puts in an order (R6, R32). -/
theorem resolveSlot_mxp : (resolveSlot k s).mxp =
    { s.mxp with
      queue := if (s.slot k).cfg.enabled = true ∧ (resolution s k).1 ≠ (s.slot k).resolved then
        putOrderIn k (resolution s k).1 s.mxp.queue else s.mxp.queue } := by
  unfold resolveSlot
  dsimp only
  split_ifs <;> simp_all [putOrder, storeResolution]

/-- The page is built last, when the slots have their new resolution. -/
theorem resolveSlot_pages : ∃ u : State, u.lur = (storeResolution k s).lur ∧ u.crs = s.crs ∧ resolveSlot k s =
    if ((resolution s k).1 == 0) ≠ ((s.slot k).resolved == 0) then rebuildMap (mapPageOf k) u else u := by
  refine ⟨if ((s.slot k).cfg.enabled && (resolution s k).1 != (s.slot k).resolved) = true then
    putOrder k (resolution s k).1 (storeResolution k s) else storeResolution k s, ?_, ?_, ?_⟩
  · split_ifs <;> rfl
  · split_ifs <;> rfl
  · simp only [resolveSlot, bne_iff_ne]

theorem resolveSlot_pagesOnly : PagesOnly s (resolveSlot k s) := by
  unfold PagesOnly resolveSlot
  dsimp only
  split_ifs <;> rfl

@[simp] theorem resolveSlot_eventPages : (resolveSlot k s).crs.eventPages = s.crs.eventPages := by
  unfold resolveSlot
  dsimp only
  split_ifs <;> rfl

/-- A change to or from the slate rebuilds the slot's MAP page (R20). -/
theorem resolveSlot_mapPageHeld (n : Nat) : (resolveSlot k s).mapPageHeld n =
    if n = mapPageOf k ∧ ((resolution s k).1 == 0) ≠ ((s.slot k).resolved == 0) then mapPage (resolveSlot k s) n
    else s.mapPageHeld n := by
  obtain ⟨u, hl, hc, hu⟩ := resolveSlot_pages k s
  have hheld : u.mapPageHeld n = s.mapPageHeld n := by
    simp only [State.mapPageHeld, hc]
  rw [mapPage_congr ((resolveSlot_lur k s).trans hl.symm), hu]
  by_cases hz : ((resolution s k).1 == 0) ≠ ((s.slot k).resolved == 0)
  · by_cases hn : n = mapPageOf k <;> simp [hz, hn, hheld]
  · simp [hz, hheld]

theorem resolved_resolveSlot : Resolved k (resolveSlot k s) := by
  have h : resolution (resolveSlot k s) k = resolution s k := resolution_congr (by simp) (by simp) (by simp) (by simp)
    (by simp)
  simp [Resolved, h]

theorem keepsSlot_resolveSlot : KeepsSlot k s (resolveSlot k s) := by simp [KeepsSlot]

variable {k s}

/-- Of the listed slots, one puts in an order just when slot `k` is enabled and its source changes: an enabled slot is
listed. -/
theorem ordered_eq_nil {p : Nat → Bool} (hp : ∀ j, p j = true ↔ j = k) :
    (s.slotKeys.filter fun j =>
        p j && (s.slot j).cfg.enabled && ((resolveSlot k s).slot j).resolved != (s.slot j).resolved) = []
      ↔ ¬((s.slot k).cfg.enabled = true ∧ (resolution s k).1 ≠ (s.slot k).resolved) := by
  simp only [List.filter_eq_nil_iff, Bool.and_eq_true, bne_iff_ne, hp]
  constructor
  · rintro h ⟨he, hne⟩
    exact h k (mem_slotKeys_of_enabled he) ⟨⟨rfl, he⟩, by simpa using hne⟩
  · rintro h j _ ⟨⟨rfl, he⟩, hne⟩
    exact h ⟨he, by simpa using hne⟩

/-- Resolving slot `k` again is what `Reresolved` says of the slots named by a `p` that names `k` alone. -/
theorem reresolved_resolveSlot {p : Nat → Bool} (hp : ∀ j, p j = true ↔ j = k) : Reresolved p s (resolveSlot k s) := by
  refine ⟨fun j => ?_, by simp, by simp, by simp [resolveSlot_mxp], ?_, resolveSlot_pagesOnly k s, fun j hj hz => ?_,
    fun n hn => ?_⟩
  · by_cases hj : j = k
    · subst hj
      rw [if_pos ((hp j).mpr rfl)]
      exact ⟨resolved_resolveSlot j s, keepsSlot_resolveSlot j s⟩
    · rw [if_neg fun h => hj ((hp j).mp h), resolveSlot_slot, if_neg hj]
  · rw [ordersPut_eq (k := k) _ _ fun j hj => (hp j).mp (by simp_all), resolveSlot_mxp, resolveSlot_slot, if_pos rfl]
    have hnone := ordered_eq_nil (s := s) hp
    by_cases hc : (s.slot k).cfg.enabled = true ∧ (resolution s k).1 ≠ (s.slot k).resolved
    · rw [if_pos hc, if_neg fun h => hnone.mp h hc]
    · rw [if_neg hc, if_pos (hnone.mpr hc)]
  · obtain rfl := (hp j).mp hj
    rw [resolveSlot_mapPageHeld, if_pos ⟨rfl, by simpa using hz⟩]
  · rw [resolveSlot_mapPageHeld, if_neg]
    rintro ⟨rfl, hz⟩
    exact hz (by simpa using hn k ((hp k).mpr rfl) rfl)

/-- Where `p` names no slot, nothing is resolved again. -/
theorem reresolved_refl {p : Nat → Bool} (hp : ∀ j, p j = false) : Reresolved p s s := by
  refine ⟨fun j => by simp [hp j], rfl, rfl, rfl, ?_, rfl, fun j hj => ?_, fun n _ => rfl⟩
  · simp [hp, ordersPut]
  · simp [hp j] at hj

end ResolveSlot

/-- What is resolved again is seen in the line-up, the sources, the matrix queue and the carousel alone; the EVENTS pages
do not count. -/
theorem reresolved_congr {p : Nat → Bool} {s s' t t' : State} (h : Reresolved p s t) (hs : s'.lur = s.lur)
    (hsm : s'.mxp = s.mxp) (hsc : s'.crs = s.crs) (hl : t'.lur = t.lur) (hn : t'.smn = t.smn) (hm : t'.mxp = t.mxp)
    (hc : t'.crs = { t.crs with eventPages := t'.crs.eventPages }) : Reresolved p s' t' := by
  have hmap : t'.crs.mapPages = t.crs.mapPages := by rw [hc]
  have hss := slot_congr hs
  have hts := slot_congr hl
  obtain ⟨hslot, hev, hov, hq, horder, hpages, hon, hoff⟩ := h
  refine ⟨fun k => ?_, ?_, ?_, ?_, ?_, ?_, fun k => ?_, fun n => ?_⟩
  · have := hslot k
    by_cases hk : p k = true
    · rw [if_pos hk] at this ⊢
      exact ⟨resolved_congr this.1 hl hn, by simpa only [KeepsSlot, hss, hts] using this.2⟩
    · rw [if_neg hk] at this ⊢
      rw [hts, hss, this]
  · rw [hl, hs, hev]
  · rw [hl, hs, hov]
  · rw [hm, hsm, hq]
  · rw [hm, hsm, horder]
    simp only [ordersPut, State.slotKeys, hss, hts, hs]
  · unfold PagesOnly at hpages ⊢
    rw [hc, hpages, hsc]
  · simpa only [State.mapPageHeld, hmap, mapPage_congr hl, hts, hss] using hon k
  · simpa only [State.mapPageHeld, hmap, hsc, hts, hss] using hoff n

/-! ## SLOT.SET and SLOT.RESTORE -/

theorem displayTaken_iff {s : State} {k display : Nat} : displayTaken s k display = true
    ↔ ∃ j, j ≠ k ∧ (s.slot j).cfg.enabled = true ∧ (s.slot j).cfg.display = display := by
  simp only [displayTaken, List.any_eq_true, Bool.and_eq_true, bne_iff_ne, beq_iff_eq, and_assoc]
  exact ⟨fun ⟨j, _, h⟩ => ⟨j, h⟩, fun ⟨j, h⟩ => ⟨j, mem_slotKeys_of_enabled h.2.1, h⟩⟩

theorem slotInUse_iff {s : State} {k : Nat} :
    slotInUse s k = true ↔ ∃ n e, s.event n = some e ∧ e.cfg.slot = k ∧ e.state ≠ .ended := by
  unfold slotInUse
  rw [any_eventEntries (f := fun e => e.cfg.slot == k && e.state != .ended)]
  simp

/-- SLOT.SET's check for DUPLICATE (R2). -/
theorem duplicate_iff {s : State} {k : Nat} {c : SlotCfg} : (c.enabled && displayTaken s k c.display) = true
    ↔ c.enabled = true ∧ ∃ j, j ≠ k ∧ (s.slot j).cfg.enabled = true ∧ (s.slot j).cfg.display = c.display := by
  rw [Bool.and_eq_true, displayTaken_iff]

/-- SLOT.SET's check for IN USE (R2). -/
theorem inUse_iff {s : State} {k : Nat} {c : SlotCfg} :
    ((s.slot k).cfg.enabled && !c.enabled && slotInUse s k) = true
      ↔ (s.slot k).cfg.enabled = true ∧ c.enabled = false
        ∧ ∃ n e, s.event n = some e ∧ e.cfg.slot = k ∧ e.state ≠ .ended := by
  rw [Bool.and_eq_true, Bool.and_eq_true, Bool.not_eq_true', slotInUse_iff, and_assoc]

/-- The state in which an accepted SLOT.SET resolves its slot: the fields stored, the latch clear if the primary
changed (R3). -/
def withFields (k : Nat) (c : SlotCfg) (s : State) : State :=
  s.setSlot k
    { s.slot k with cfg := c, latch := if c.primary = (s.slot k).cfg.primary then (s.slot k).latch else false }

section SlotSet

variable (k : Nat) (c : SlotCfg) (s : State)

@[simp] theorem withFields_slot (j : Nat) : (withFields k c s).slot j = if j = k then
    { s.slot k with cfg := c, latch := if c.primary = (s.slot k).cfg.primary then (s.slot k).latch else false }
    else s.slot j := slot_setSlot s k j _

/-- The slot resolved with its new fields, and the order that an enabling puts in whatever the source (R6). -/
def withOrder : State :=
  let r := resolveSlot k (withFields k c s)
  if c.enabled && !(s.slot k).cfg.enabled then putOrder k (r.slot k).resolved r else r

theorem withOrder_lur : (withOrder k c s).lur = (resolveSlot k (withFields k c s)).lur := by
  unfold withOrder
  dsimp only
  split_ifs <;> rfl

theorem withOrder_smn : (withOrder k c s).smn = s.smn := by
  unfold withOrder
  dsimp only
  split_ifs <;> simp [withFields]

theorem withOrder_aen : (withOrder k c s).aen = s.aen := by
  unfold withOrder
  dsimp only
  split_ifs <;> simp [withFields]

theorem withOrder_crs : (withOrder k c s).crs = (resolveSlot k (withFields k c s)).crs := by
  unfold withOrder
  dsimp only
  split_ifs <;> rfl

/-- The order of a changed source and the order of an enabling are one order. -/
theorem withOrder_mxp : (withOrder k c s).mxp = { s.mxp with
    queue := if c.enabled = true ∧ (((withOrder k c s).slot k).resolved ≠ (s.slot k).resolved
        ∨ (s.slot k).cfg.enabled = false) then
      putOrderIn k ((withOrder k c s).slot k).resolved s.mxp.queue else s.mxp.queue } := by
  have hr : (resolveSlot k (withFields k c s)).mxp = { s.mxp with
      queue := if c.enabled = true ∧ ((resolveSlot k (withFields k c s)).slot k).resolved ≠ (s.slot k).resolved then
        putOrderIn k ((resolveSlot k (withFields k c s)).slot k).resolved s.mxp.queue else s.mxp.queue } := by
    simp [resolveSlot_mxp, withFields]
  rw [slot_congr (withOrder_lur k c s)]
  unfold withOrder
  dsimp only
  by_cases hon : (c.enabled && !(s.slot k).cfg.enabled) = true
  · obtain ⟨hc, ho⟩ : c.enabled = true ∧ (s.slot k).cfg.enabled = false := by simpa using hon
    rw [if_pos hon, if_pos ⟨hc, .inr ho⟩, putOrder, hr]
    split_ifs <;> simp [putOrderIn_putOrderIn]
  · have ho : c.enabled = true → (s.slot k).cfg.enabled ≠ false := by simpa using hon
    rw [if_neg hon, hr]
    by_cases hc : c.enabled = true
    · simp [hc, ho hc]
    · simp [hc]

theorem withOrder_only : OnlyChanges [.lur, .mxp, .crs] s (withOrder k c s) := by
  have hr : OnlyChanges [.lur, .mxp, .crs] s (resolveSlot k (withFields k c s)) :=
    ((setSlot_only k _ s).mono (by simp)).trans (resolveSlot_only k _)
  exact OnlyChanges.ite (hr.trans ((putOrder_only k _ _).mono (by simp))) hr

/-- The wave of a changed tier or enabling (R3). -/
def withWave : State :=
  if c.tier ≠ (s.slot k).cfg.tier ∨ c.enabled ≠ (s.slot k).cfg.enabled then
    appendWave (.tiers (tierBit (s.slot k).cfg.tier ||| tierBit c.tier)) (withOrder k c s)
  else withOrder k c s

theorem withWave_lur : (withWave k c s).lur = (resolveSlot k (withFields k c s)).lur := by
  rw [← withOrder_lur]
  unfold withWave
  split_ifs <;> rfl

theorem withWave_smn : (withWave k c s).smn = s.smn := by
  rw [← withOrder_smn k c s]
  unfold withWave
  split_ifs <;> rfl

theorem withWave_mxp : (withWave k c s).mxp = (withOrder k c s).mxp := by
  unfold withWave
  split_ifs <;> rfl

theorem withWave_crs : (withWave k c s).crs = (resolveSlot k (withFields k c s)).crs := by
  rw [← withOrder_crs]
  unfold withWave
  split_ifs <;> rfl

theorem withWave_aen : (withWave k c s).aen = { s.aen with
    waves := if c.tier ≠ (s.slot k).cfg.tier ∨ c.enabled ≠ (s.slot k).cfg.enabled then
      appendedWaves (.tiers (tierBit (s.slot k).cfg.tier ||| tierBit c.tier)) s.aen.waves else s.aen.waves } := by
  unfold withWave
  split_ifs <;> simp [appendWave, State.setWaves, withOrder_aen]

theorem withWave_only : OnlyChanges [.lur, .mxp, .crs, .waves] s (withWave k c s) := by
  have ho := (withOrder_only k c s).mono (qs := [.lur, .mxp, .crs, .waves]) (by simp)
  exact OnlyChanges.ite (ho.trans ((appendWave_only _ _).mono (by simp))) ho

variable {k c s}

/-- SLOT.SET with the fields the slot has changes nothing (R3). -/
theorem slotSetEffect_of_eq (h : (s.slot k).cfg = c) : slotSetEffect k c s = s := if_pos h

variable (hne : (s.slot k).cfg ≠ c)

include hne

/-- An accepted SLOT.SET that changes a field (R3): fields, resolution and order, wave, and the MAP page last. -/
theorem slotSetEffect_eq : slotSetEffect k c s =
    if shownFields c ≠ shownFields (s.slot k).cfg then rebuildMap (mapPageOf k) (withWave k c s)
    else withWave k c s :=
  if_neg hne

theorem slotSetEffect_only : OnlyChanges [.lur, .mxp, .crs, .waves] s (slotSetEffect k c s) := by
  rw [slotSetEffect_eq hne]
  have hw := withWave_only k c s
  exact OnlyChanges.ite (hw.trans ((rebuildMap_only _ _).mono (by simp))) hw

theorem slotSetEffect_lur : (slotSetEffect k c s).lur = (resolveSlot k (withFields k c s)).lur := by
  rw [slotSetEffect_eq hne, ← withWave_lur]
  split_ifs <;> rfl

theorem slotSetEffect_smn : (slotSetEffect k c s).smn = s.smn := by
  rw [slotSetEffect_eq hne, ← withWave_smn k c s]
  split_ifs <;> rfl

theorem slotSetEffect_aen : (slotSetEffect k c s).aen = (withWave k c s).aen := by
  rw [slotSetEffect_eq hne]
  split_ifs <;> rfl

theorem slotSetEffect_slot_same : (slotSetEffect k c s).slot k =
    { s.slot k with
      cfg := c
      latch := if c.primary = (s.slot k).cfg.primary then (s.slot k).latch else false
      resolved := (resolution (withFields k c s) k).1
      step := (resolution (withFields k c s) k).2 } := by
  simp [slot_congr (slotSetEffect_lur hne)]

theorem slotSetEffect_slot_ne {j : Nat} (hj : j ≠ k) : (slotSetEffect k c s).slot j = s.slot j := by
  simp [slot_congr (slotSetEffect_lur hne), hj]

theorem slotSetEffect_events : (slotSetEffect k c s).lur.events = s.lur.events := by
  rw [slotSetEffect_lur hne, resolveSlot_events]; rfl

theorem slotSetEffect_override : (slotSetEffect k c s).lur.override = s.lur.override := by
  rw [slotSetEffect_lur hne, resolveSlot_override]; rfl

theorem slotSetEffect_resolved : Resolved k (slotSetEffect k c s) :=
  resolved_congr (resolved_resolveSlot k (withFields k c s)) (slotSetEffect_lur hne)
    (by rw [slotSetEffect_smn hne, resolveSlot_smn]; rfl)

theorem slotSetEffect_mxp : (slotSetEffect k c s).mxp = { s.mxp with
    queue := if c.enabled = true ∧ (((slotSetEffect k c s).slot k).resolved ≠ (s.slot k).resolved
        ∨ (s.slot k).cfg.enabled = false) then
      putOrderIn k ((slotSetEffect k c s).slot k).resolved s.mxp.queue else s.mxp.queue } := by
  have hslot : (slotSetEffect k c s).slot = (withOrder k c s).slot :=
    slot_congr ((slotSetEffect_lur hne).trans (withOrder_lur k c s).symm)
  have hm : (slotSetEffect k c s).mxp = (withOrder k c s).mxp := by
    rw [slotSetEffect_eq hne, ← withWave_mxp]
    split_ifs <;> rfl
  rw [hslot, hm]
  exact withOrder_mxp k c s

theorem slotSetEffect_pagesOnly : PagesOnly s (slotSetEffect k c s) := by
  have hw : PagesOnly s (withWave k c s) := by
    have hr : PagesOnly s (resolveSlot k (withFields k c s)) := resolveSlot_pagesOnly k (withFields k c s)
    rwa [PagesOnly, ← withWave_crs] at hr
  rw [slotSetEffect_eq hne]
  split_ifs
  · exact pagesOnly_rebuildMap _ hw
  · exact hw

theorem slotSetEffect_eventPages : (slotSetEffect k c s).crs.eventPages = s.crs.eventPages := by
  have hr : (withWave k c s).crs.eventPages = s.crs.eventPages := by rw [withWave_crs, resolveSlot_eventPages]; rfl
  rw [slotSetEffect_eq hne, ← hr]
  split_ifs <;> rfl

/-- The slot's MAP page is built again when a field it shows changed, or the slot went to or from the slate (R3, R20). -/
theorem slotSetEffect_mapPageHeld (n : Nat) : (slotSetEffect k c s).mapPageHeld n =
    if n = mapPageOf k ∧ (shownFields c ≠ shownFields (s.slot k).cfg
      ∨ (((slotSetEffect k c s).slot k).resolved == 0) ≠ ((s.slot k).resolved == 0)) then
      mapPage (slotSetEffect k c s) n
    else s.mapPageHeld n := by
  have hw : (withWave k c s).mapPageHeld n =
      if n = mapPageOf k ∧ (((slotSetEffect k c s).slot k).resolved == 0) ≠ ((s.slot k).resolved == 0) then
        mapPage (slotSetEffect k c s) n
      else s.mapPageHeld n := by
    have hr := resolveSlot_mapPageHeld k (withFields k c s) n
    have hheld : (withWave k c s).mapPageHeld n = (resolveSlot k (withFields k c s)).mapPageHeld n := by
      simp only [State.mapPageHeld, withWave_crs]
    rw [hheld, hr, mapPage_congr (slotSetEffect_lur hne)]
    simp only [slot_congr (slotSetEffect_lur hne), resolveSlot_slot, withFields_slot, if_true]
    rfl
  by_cases hf : shownFields c ≠ shownFields (s.slot k).cfg
  · have hl : (slotSetEffect k c s).lur = (withWave k c s).lur := by rw [slotSetEffect_lur hne, withWave_lur]
    rw [mapPage_congr hl] at hw ⊢
    have he : (slotSetEffect k c s).mapPageHeld n = (rebuildMap (mapPageOf k) (withWave k c s)).mapPageHeld n := by
      rw [slotSetEffect_eq hne, if_pos hf]
    rw [he, mapPageHeld_rebuildMap]
    by_cases hn : n = mapPageOf k
    · simp [hn, hf]
    · rw [if_neg hn, hw, if_neg fun h => hn h.1, if_neg fun h => hn h.1]
  · have he : (slotSetEffect k c s).mapPageHeld n = (withWave k c s).mapPageHeld n := by
      rw [slotSetEffect_eq hne, if_neg hf]
    rw [he, hw]
    simp only [hf, false_or]

end SlotSet

theorem slotSetVerb_of_args {args : List Text} {s : State} {k : Nat} {c : SlotCfg} (hs : s.saving = false)
    (ha : argsSlotSet args = some (k, c)) : slotSetVerb args s =
      if c.enabled && displayTaken s k c.display then refuse .duplicate s
      else if (s.slot k).cfg.enabled && !c.enabled && slotInUse s k then refuse .inUse s
      else accept (slotSetEffect k c s) := by
  simp [slotSetVerb, hs, ha]

theorem slotRestoreVerb_of_unread {args : List Text} {s : State} (ha : one (argNum 1 80) args = none) :
    slotRestoreVerb args s = refuse .args s := by
  rcases args with _ | ⟨a, _ | ⟨b, rest⟩⟩
  · rfl
  · have : argSlot a = none := ha
    simp [slotRestoreVerb, this]
  · rfl

theorem slotRestoreVerb_of_args {args : List Text} {s : State} {k : Nat} (ha : one (argNum 1 80) args = some k) :
    slotRestoreVerb args s =
      if !s.usable (s.slot k).cfg.primary then refuse .state s
      else if (s.slot k).latch then accept (resolveSlot k (setLatch false k s))
      else accept s := by
  obtain ⟨a, rfl, ha⟩ := one_eq_some.mp ha
  have : argSlot a = some k := ha
  simp [slotRestoreVerb, this]

/-- Settles O24: an accepted SLOT.SET is taken apart by `slotSetEffect_eq`, and SLOT.RESTORE resolves one slot again. -/
theorem slotVerbEffects : Obligations.SlotVerbEffects := by
  unfold Obligations.SlotVerbEffects
  refine ⟨fun l tag args s h => ?_, fun l tag args s h => ⟨fun ha => ?_, fun k ha => ?_⟩⟩
  · refine parsed_of_act rfl h (fun hs => by simp [slotSetVerb, hs]) (fun hs ha => by simp [slotSetVerb, hs, ha])
      fun (k, c) hs ha => ?_
    have hverb := slotSetVerb_of_args hs ha
    refine ⟨fun hdup => ?_, fun hdup => ⟨fun huse => ?_, fun huse => ?_⟩⟩
    · exact refuses_of_effect rfl h (hverb.trans (if_pos (duplicate_iff.mpr hdup)))
    · exact refuses_of_effect rfl h
        (hverb.trans ((if_neg (mt duplicate_iff.mp hdup)).trans (if_pos (inUse_iff.mpr huse))))
    have hacc := hverb.trans ((if_neg (mt duplicate_iff.mp hdup)).trans (if_neg (mt inUse_iff.mp huse)))
    refine ⟨fun hc => ?_, fun hne => ?_⟩
    · rw [slotSetEffect_of_eq (s := popLine l s) hc] at hacc
      exact accepts_of_effect rfl h hacc (OnlyChanges.refl [] _) (by simp) trivial
    · have hne : ((popLine l s).slot k).cfg ≠ c := hne
      have honly := slotSetEffect_only hne
      have hslot := slotSetEffect_slot_same hne
      have hother := fun j (hj : j ≠ k) => slotSetEffect_slot_ne hne hj
      have hres := slotSetEffect_resolved hne
      have hev := slotSetEffect_events hne
      have hov := slotSetEffect_override hne
      have hmxp := slotSetEffect_mxp hne
      have haen := (slotSetEffect_aen hne).trans (withWave_aen k c _)
      have hpages := slotSetEffect_pagesOnly hne
      have hevp := slotSetEffect_eventPages hne
      have hmap := slotSetEffect_mapPageHeld hne
      generalize slotSetEffect k c (popLine l s) = u at *
      exact accepts_of_effect rfl h hacc honly (by simp)
        ⟨congrArg Slot.cfg hslot, congrArg Slot.latch hslot, (congrArg Slot.carried hslot :),
          (congrArg Slot.fault hslot :), hres, hother, hev, hov, by rw [report_mxp, emit_mxp, hmxp]; rfl,
          congrArg Mxp.queue hmxp, (congrArg Aen.paused haen :), congrArg Aen.waves haen, hpages, hevp, hmap⟩
  · exact refuses_of_effect rfl h (slotRestoreVerb_of_unread ha)
  · have hverb := slotRestoreVerb_of_args (s := popLine l s) ha
    refine ⟨fun hu => ?_, fun hu => ⟨fun hl => ?_, fun hl => ?_⟩⟩
    · exact refuses_of_effect rfl h (by simp [hverb, hu])
    · have hacc : slotRestoreVerb args (popLine l s) = accept (popLine l s) := by simp [hverb, hu, hl]
      exact accepts_of_effect rfl h hacc (OnlyChanges.refl [] _) (by simp) trivial
    · have hacc : slotRestoreVerb args (popLine l s) = accept (resolveSlot k (setLatch false k (popLine l s))) := by
        simp [hverb, hu, hl]
      have ho : OnlyChanges [.lur, .mxp, .crs] (popLine l s) (resolveSlot k (setLatch false k (popLine l s))) :=
        ((setLatch_only false k _).mono (by simp)).trans (resolveSlot_only k _)
      have hr := reresolved_resolveSlot (k := k) (s := setLatch false k (popLine l s)) fun j => decide_eq_true_iff
      have hp := resolveSlot_eventPages k (setLatch false k (popLine l s))
      generalize resolveSlot k (setLatch false k (popLine l s)) = u at *
      exact accepts_of_effect rfl h hacc ho (by simp) ⟨reresolved_congr hr rfl rfl rfl rfl rfl rfl rfl, hp⟩

/-! ## EVENT.ADD -/

/-- EVENT.ADD's check for RANGE (R12). -/
theorem past_iff {s : State} {c : EventCfg} : (s.tmb.timeSet && decide (c.stop ≤ s.tmb.station)) = true
    ↔ s.tmb.timeSet = true ∧ c.stop ≤ s.tmb.station := by
  rw [Bool.and_eq_true, decide_eq_true_iff]

theorem spanOverlaps_iff {s : State} {c : EventCfg} : spanOverlaps s c = true
    ↔ ∃ n e, s.event n = some e ∧ e.cfg.slot = c.slot ∧ e.state ≠ .ended ∧ e.cfg.start < c.stop
      ∧ c.start < e.cfg.stop := by
  unfold spanOverlaps
  rw [any_eventEntries (f := fun e => e.cfg.slot == c.slot && e.state != .ended && decide (e.cfg.start < c.stop)
    && decide (c.start < e.cfg.stop))]
  simp [and_assoc]

theorem freeEntry_eq_none {s : State} (h : ∀ n, n < 32 → s.event n ≠ none) : s.freeEntry = none := by
  simpa [State.freeEntry, Option.isNone_iff_eq_none] using h

/-- The lowest free entry is the one found (R12). -/
theorem freeEntry_eq_some {s : State} {k : Nat} (hk : k < 32) (hfree : s.event k = none)
    (hlow : ∀ j, j < k → s.event j ≠ none) : s.freeEntry = some k := by
  rw [State.freeEntry, List.find?_range_eq_some]
  simpa [hk, hfree, Option.isSome_iff_ne_none] using hlow

/-- The state in which an accepted EVENT.ADD resolves its slot: the event in its entry. -/
def withEvent (k : Nat) (c : EventCfg) (s : State) : State :=
  s.setEvent k (some ⟨c, eventStateAt s.tmb.timeSet s.tmb.station c, false, false⟩)

/-- The slot of entry `k` resolved again when `b` holds, and the entry's EVENTS page built again (R11, R12). -/
def reshown (b : Prop) [Decidable b] (k slot : Nat) (s : State) : State :=
  rebuildEvents (eventPageOf k) (if b then resolveSlot slot s else s)

section Reshown

variable (b : Prop) [Decidable b] (k slot : Nat) (s : State)

theorem reshown_only : OnlyChanges [.lur, .mxp, .crs] s (reshown b k slot s) :=
  (OnlyChanges.ite (resolveSlot_only slot s) (OnlyChanges.refl _ s)).trans ((rebuildEvents_only _ _).mono (by simp))

@[simp] theorem reshown_events : (reshown b k slot s).lur.events = s.lur.events := by
  unfold reshown
  split_ifs <;> simp

theorem reshown_event : (reshown b k slot s).event = s.event := event_congr (reshown_events b k slot s)

@[simp] theorem reshown_aen : (reshown b k slot s).aen = s.aen := by
  unfold reshown
  split_ifs <;> simp

@[simp] theorem reshown_ofp : (reshown b k slot s).ofp = s.ofp := by
  unfold reshown
  split_ifs <;> simp

theorem reresolved_reshown : Reresolved (fun j => decide (b ∧ j = slot)) s (reshown b k slot s) := by
  unfold reshown
  split_ifs with hb
  · exact reresolved_congr (reresolved_resolveSlot (k := slot) (s := s) (by simp [hb])) rfl rfl rfl rfl rfl rfl rfl
  · exact reresolved_congr (reresolved_refl (s := s) (by simp [hb])) rfl rfl rfl rfl rfl rfl rfl

theorem rebuiltEvents_reshown : RebuiltEvents (k / 8) s (reshown b k slot s) := by
  refine rebuiltEvents_of (u := if b then resolveSlot slot s else s) ?_ rfl rfl
  split_ifs <;> simp

end Reshown

theorem eventAddVerb_of_args {args : List Text} {s : State} {c : EventCfg} (hs : s.saving = false)
    (ha : argsEventAdd args = some c) : eventAddVerb args s =
      if s.tmb.timeSet && decide (c.stop ≤ s.tmb.station) then refuse .range s
      else if !(s.slot c.slot).cfg.enabled then refuse .state s
      else if spanOverlaps s c then refuse .overlap s
      else if (s.findEvent c.id).isSome then refuse .duplicate s
      else s.freeEntry.elim (refuse .full s) fun k => (eventAddEffect k c s, .ok [fNum k]) := by
  cases hf : s.freeEntry <;> simp [eventAddVerb, hs, ha, hf]

section EventAdd

variable (k : Nat) (c : EventCfg) (s : State)

theorem eventAddEffect_eq : eventAddEffect k c s =
    reshown (eventStateAt s.tmb.timeSet s.tmb.station c = .showing) k c.slot (withEvent k c s) := rfl

theorem eventAddEffect_only :
    OnlyChanges [.lur, .mxp, .crs] s (eventAddEffect k c s) := by
  rw [eventAddEffect_eq]
  exact ((setEvent_only k _ s).mono (by simp)).trans (reshown_only _ k c.slot _)

theorem eventAddEffect_event (j : Nat) : (eventAddEffect k c s).event j =
    if j = k then some ⟨c, eventStateAt s.tmb.timeSet s.tmb.station c, false, false⟩ else s.event j := by
  rw [eventAddEffect_eq, reshown_event]
  exact event_setEvent s k j _

theorem eventAddEffect_reresolved :
    Reresolved (fun j => decide (eventStateAt s.tmb.timeSet s.tmb.station c = .showing ∧ j = c.slot))
      (withEvent k c s) (eventAddEffect k c s) := by
  rw [eventAddEffect_eq]
  exact reresolved_reshown _ k c.slot _

theorem eventAddEffect_page : RebuiltEvents (k / 8) s (eventAddEffect k c s) := by
  rw [eventAddEffect_eq]
  exact rebuiltEvents_reshown _ k c.slot (withEvent k c s)

end EventAdd

/-- Settles O25: the event is set in the lowest free entry, then its slot and page follow by `reshown`. -/
theorem eventAddEffects : Obligations.EventAddEffects := by
  unfold Obligations.EventAddEffects
  intro l tag args s h
  refine parsed_of_act rfl h (fun hs => by simp [eventAddVerb, hs]) (fun hs ha => by simp [eventAddVerb, hs, ha])
    fun c hs ha => ?_
  have hverb := eventAddVerb_of_args hs ha
  refine ⟨fun hrange => ?_, fun hrange => ?_⟩
  · exact refuses_of_effect rfl h (hverb.trans (if_pos (past_iff.mpr hrange)))
  replace hverb := hverb.trans (if_neg (mt past_iff.mp hrange))
  refine ⟨fun hstate => ?_, fun hstate => ?_⟩
  · exact refuses_of_effect rfl h (hverb.trans (if_pos (by simpa using hstate)))
  replace hverb := hverb.trans (if_neg (by simpa using hstate))
  refine ⟨fun hspan => ?_, fun hspan => ?_⟩
  · exact refuses_of_effect rfl h (hverb.trans (if_pos (spanOverlaps_iff.mpr hspan)))
  replace hverb := hverb.trans (if_neg (mt spanOverlaps_iff.mp hspan))
  refine ⟨fun hdup => ?_, fun hdup => ?_⟩
  · exact refuses_of_effect rfl h (hverb.trans (if_pos (findEvent_isSome.mpr hdup)))
  replace hverb := hverb.trans (if_neg (mt findEvent_isSome.mp hdup))
  refine ⟨fun hfull => ?_, fun _ k hk hfree hlow => ?_⟩
  · rw [freeEntry_eq_none (s := popLine l s) hfull] at hverb
    exact refuses_of_effect rfl h hverb
  rw [freeEntry_eq_some (s := popLine l s) hk hfree hlow, Option.elim_some] at hverb
  have honly := eventAddEffect_only k c (popLine l s)
  have hevent := eventAddEffect_event k c (popLine l s)
  have hslot := eventAddEffect_reresolved k c (popLine l s)
  have hpage := eventAddEffect_page k c (popLine l s)
  generalize eventAddEffect k c (popLine l s) = u at *
  exact accepts_of_effect rfl h hverb honly (by simp) ⟨(hevent k).trans (if_pos rfl),
    fun j hj => (hevent j).trans (if_neg hj), reresolved_congr hslot rfl rfl rfl rfl rfl rfl rfl, hpage⟩

/-! ## EVENT.CANCEL and EVENT.DELETE -/

/-- The event an EVENT.CANCEL leaves (R13). -/
def cancelledEvent (e : Event) : Event := { e with cfg := { e.cfg with cancelled := true }, state := .ended }

section EventCancel

variable (k : Nat) (e : Event) (s : State)

/-- An accepted EVENT.CANCEL: the event set, EVENT attention, the slot and page, and the wave last (R11, R13). -/
theorem eventCancelEffect_eq : eventCancelEffect k e s = appendWave (.event e.cfg.id)
    (reshown (e.state = .showing) k e.cfg.slot (raise .event (s.setEvent k (some (cancelledEvent e))))) := by
  simp [eventCancelEffect, eventChanged, reshown, cancelledEvent]

theorem eventCancelEffect_only : OnlyChanges [.lur, .mxp, .crs, .attn, .waves] s (eventCancelEffect k e s) :=
  ((setEvent_only k _ s).mono (by simp)).trans (eventChanged_only k e .ended _)

theorem eventCancelEffect_event (j : Nat) :
    (eventCancelEffect k e s).event j = if j = k then some (cancelledEvent e) else s.event j := by
  have hev : (eventCancelEffect k e s).event = (s.setEvent k (some (cancelledEvent e))).event := by
    rw [eventCancelEffect_eq]
    exact reshown_event _ k e.cfg.slot (raise .event (s.setEvent k (some (cancelledEvent e))))
  rw [hev, event_setEvent]

theorem eventCancelEffect_reresolved : Reresolved (fun j => decide (e.state = .showing ∧ j = e.cfg.slot))
    (s.setEvent k (some (cancelledEvent e))) (eventCancelEffect k e s) := by
  rw [eventCancelEffect_eq]
  exact reresolved_congr
    (reresolved_reshown _ k e.cfg.slot (raise .event (s.setEvent k (some (cancelledEvent e))))) rfl rfl rfl rfl rfl rfl
    rfl

theorem eventCancelEffect_page : RebuiltEvents (k / 8) s (eventCancelEffect k e s) := by
  rw [eventCancelEffect_eq]
  exact rebuiltEvents_reshown _ k e.cfg.slot (raise .event (s.setEvent k (some (cancelledEvent e))))

theorem eventCancelEffect_raised : Raised [.event] s (eventCancelEffect k e s) := by
  intro j
  have hattn : (eventCancelEffect k e s).attn j = (raise .event (s.setEvent k (some (cancelledEvent e)))).attn j := by
    rw [State.attn, eventCancelEffect_eq, appendWave_ofp, reshown_ofp]
    rfl
  rw [hattn, attn_raise]
  by_cases hj : j = .event
  · subst hj
    rfl
  · simp [hj, State.attn]

theorem eventCancelEffect_aen : (eventCancelEffect k e s).aen =
    { s.aen with waves := appendedWaves (.event e.cfg.id) s.aen.waves } := by
  rw [eventCancelEffect_eq]
  simp [appendWave, State.setWaves]

end EventCancel

theorem eventCancelVerb_of_unread {args : List Text} {s : State} (hs : s.saving = false)
    (ha : one (fun a => (argNum 1 255 a).bind s.findEvent) args = none) : eventCancelVerb args s = refuse .args s := by
  rcases args with _ | ⟨a, _ | ⟨b, rest⟩⟩
  · simp [eventCancelVerb, hs]
  · have : (argId a).bind s.findEvent = none := ha
    simp [eventCancelVerb, hs, this]
  · simp [eventCancelVerb, hs]

theorem eventCancelVerb_of_args {args : List Text} {s : State} {k : Nat} {e : Event} (hs : s.saving = false)
    (ha : one (fun a => (argNum 1 255 a).bind s.findEvent) args = some (k, e)) : eventCancelVerb args s =
      if e.state = .ended then refuse .state s else accept (eventCancelEffect k e s) := by
  obtain ⟨a, rfl, ha⟩ := one_eq_some.mp ha
  have : (argId a).bind s.findEvent = some (k, e) := ha
  simp [eventCancelVerb, hs, this]

theorem eventDeleteVerb_of_unread {args : List Text} {s : State} (hs : s.saving = false)
    (ha : one (fun a => (argNum 1 255 a).bind s.findEvent) args = none) : eventDeleteVerb args s = refuse .args s := by
  rcases args with _ | ⟨a, _ | ⟨b, rest⟩⟩
  · simp [eventDeleteVerb, hs]
  · have : (argId a).bind s.findEvent = none := ha
    simp [eventDeleteVerb, hs, this]
  · simp [eventDeleteVerb, hs]

theorem eventDeleteVerb_of_args {args : List Text} {s : State} {k : Nat} {e : Event} (hs : s.saving = false)
    (ha : one (fun a => (argNum 1 255 a).bind s.findEvent) args = some (k, e)) : eventDeleteVerb args s =
      if e.state = .ended ∧ e.cleanup then accept (rebuildEvents (eventPageOf k) (s.setEvent k none))
      else refuse .inUse s := by
  obtain ⟨a, rfl, ha⟩ := one_eq_some.mp ha
  have : (argId a).bind s.findEvent = some (k, e) := ha
  simp [eventDeleteVerb, hs, this]

/-- Settles O26: a cancelled event is set ENDED, then its slot, page and wave follow by `eventCancelEffect_eq`; a deleted
one leaves its entry, and its page is built again. -/
theorem eventCancelAndDelete : Obligations.EventCancelAndDelete := by
  unfold Obligations.EventCancelAndDelete
  refine ⟨fun l tag args s h => ?_, fun l tag args s h => ?_⟩
  · refine parsed_of_act rfl h (fun hs => by simp [eventCancelVerb, hs]) (fun hs ha => eventCancelVerb_of_unread hs ha)
      fun (k, e) hs ha => ?_
    have hverb := eventCancelVerb_of_args hs ha
    refine ⟨fun hend => ?_, fun hend => ?_⟩
    · exact refuses_of_effect rfl h (hverb.trans (if_pos hend))
    replace hverb := hverb.trans (if_neg hend)
    have honly := eventCancelEffect_only k e (popLine l s)
    have hevent := eventCancelEffect_event k e (popLine l s)
    have hslot := eventCancelEffect_reresolved k e (popLine l s)
    have hpage := eventCancelEffect_page k e (popLine l s)
    have hraised := eventCancelEffect_raised k e (popLine l s)
    have haen := eventCancelEffect_aen k e (popLine l s)
    generalize eventCancelEffect k e (popLine l s) = u at *
    exact accepts_of_effect rfl h hverb honly (by simp) ⟨(hevent k).trans (if_pos rfl),
      fun j hj => (hevent j).trans (if_neg hj), reresolved_congr hslot rfl rfl rfl rfl rfl rfl rfl, hpage,
      fun j => (hraised j).trans (by simp), (congrArg Aen.paused haen :), congrArg Aen.waves haen⟩
  · refine parsed_of_act rfl h (fun hs => by simp [eventDeleteVerb, hs]) (fun hs ha => eventDeleteVerb_of_unread hs ha)
      fun (k, e) hs ha => ?_
    have hverb := eventDeleteVerb_of_args hs ha
    have hdone : ¬(e.state ≠ .ended ∨ e.cleanup = false) ↔ e.state = .ended ∧ e.cleanup = true := by simp
    refine ⟨fun hin => ?_, fun hin => ?_⟩
    · exact refuses_of_effect rfl h (hverb.trans (if_neg fun hd => hdone.mpr hd hin))
    replace hverb := hverb.trans (if_pos (hdone.mp hin))
    have hevent := event_setEvent (popLine l s) k
    refine accepts_of_effect rfl h hverb (((setEvent_only k none _).mono (by simp)).trans
      ((rebuildEvents_only _ _).mono (by simp))) (by simp) ⟨(hevent k none).trans (if_pos rfl),
        fun j hj => (hevent j none).trans (if_neg hj), rfl, rfl, ?_, rfl, ?_⟩
    · exact pagesOnly_rebuildEvents _ rfl
    · exact rebuiltEvents_of (u := (popLine l s).setEvent k none) rfl rfl rfl

end Sys2Proof.Proofs

/-! PROOFS. The control carrier: the authorization body and the bytes of a frame (O60). First how a number's bytes and a
slot set read, then each service state's body, then the layout and the check of a frame. -/

namespace Sys2Proof.Proofs

open Sys2Proof Sys2Proof.Machine Sys2Proof.Laws

/-! ## A number in bytes (R56) -/

/-- The lowest byte of a number stands last, `BitVec.ofNat` doing the reduction. -/
theorem bytesOf_succ (n v : Nat) : bytesOf (n + 1) v = bytesOf n (v / 256) ++ [BitVec.ofNat 8 v] := by
  have hmod : BitVec.ofNat 8 (v % 256) = BitVec.ofNat 8 v := BitVec.eq_of_toNat_eq (by simp)
  rw [bytesOf, hmod]

theorem bytesOf_two (v : Nat) : bytesOf 2 v = [BitVec.ofNat 8 (v / 256), BitVec.ofNat 8 v] := by
  rw [bytesOf_succ, bytesOf_succ]
  rfl

theorem bytesOf_three (v : Nat) :
    bytesOf 3 v = [BitVec.ofNat 8 (v / 65536), BitVec.ofNat 8 (v / 256), BitVec.ofNat 8 v] := by
  rw [bytesOf_succ, bytesOf_two, Nat.div_div_eq_div_mul]
  rfl

/-! ## The slot set (R57) -/

/-- Bit `i` of byte `b` of a slot set, put into the bits already there: slot `8 * b + i + 1`. -/
def putSlotBit (granted : Nat → Bool) (b : Nat) (acc : Byte) (i : Nat) : Byte :=
  if granted (8 * b + i + 1) then acc ||| (1#8 <<< i) else acc

theorem slotSetBytes_eq (granted : Nat → Bool) :
    slotSetBytes granted = (List.range 10).map fun b => (List.range 8).foldl (putSlotBit granted b) 0#8 := rfl

@[simp] theorem slotSetBytes_length (granted : Nat → Bool) : (slotSetBytes granted).length = 10 := by
  simp [slotSetBytes_eq]

theorem getLsbD_putSlotBit (granted : Nat → Bool) (b i j : Nat) (acc : Byte) (hj : j < 8) :
    (putSlotBit granted b acc i).getLsbD j = (acc.getLsbD j || (decide (j = i) && granted (8 * b + i + 1))) := by
  have hbit : (1#8 <<< i).getLsbD j = decide (j = i) := by
    simp only [BitVec.getLsbD_shiftLeft, BitVec.getLsbD_one, hj]
    grind
  cases hg : granted (8 * b + i + 1) <;> simp [putSlotBit, hg, hbit]

/-- A bit of the byte after some bits are put in: one that stood before, or one of those whose slot is granted. -/
theorem getLsbD_foldl_putSlotBit (granted : Nat → Bool) (b j : Nat) (hj : j < 8) (bits : List Nat) (acc : Byte) :
    (bits.foldl (putSlotBit granted b) acc).getLsbD j
      = (acc.getLsbD j || (decide (j ∈ bits) && granted (8 * b + j + 1))) := by
  induction bits generalizing acc with
  | nil => simp
  | cons i bits ih =>
    rw [List.foldl_cons, ih, getLsbD_putSlotBit granted b i j acc hj]
    by_cases hi : j = i
    · subst hi
      cases granted (8 * b + j + 1) <;> simp
    · simp [hi]

/-- Slot `k` is bit `(k - 1) mod 8` of byte `(k - 1) div 8` (R57). -/
theorem slotSetBytes_bit (granted : Nat → Bool) {k : Nat} (hlo : 1 ≤ k) (hhi : k ≤ 80) :
    ((slotSetBytes granted).getD ((k - 1) / 8) 0#8).getLsbD ((k - 1) % 8) = granted k := by
  have hbyte : (k - 1) / 8 < 10 := by omega
  have hbit : (k - 1) % 8 < 8 := by omega
  have hslot : 8 * ((k - 1) / 8) + (k - 1) % 8 + 1 = k := by omega
  have hget : (slotSetBytes granted).getD ((k - 1) / 8) 0#8
      = (List.range 8).foldl (putSlotBit granted ((k - 1) / 8)) 0#8 := by
    simp [slotSetBytes_eq, List.getD, hbyte]
  rw [hget, getLsbD_foldl_putSlotBit granted _ _ hbit, hslot]
  simp [hbit]

theorem slotSetBytes_none : slotSetBytes (fun _ => false) = List.replicate 10 0#8 := by decide

/-! ## The authorization body (R57, R58) -/

theorem authorizationBody_eq (granted : Nat → Bool) (holdoff : Nat) (ids : List Nat) :
    authorizationBody granted holdoff ids = slotSetBytes granted
      ++ ([BitVec.ofNat 8 (holdoff / 256), BitVec.ofNat 8 holdoff, BitVec.ofNat 8 ids.length]
        ++ ids.map (BitVec.ofNat 8)) := by
  simp [authorizationBody, bytesOf_two]

theorem authorizationBody_length (granted : Nat → Bool) (holdoff : Nat) (ids : List Nat) :
    (authorizationBody granted holdoff ids).length = 13 + ids.length := by
  simp only [authorizationBody_eq, List.length_append, slotSetBytes_length, List.length_map, List.length_cons,
    List.length_nil]
  omega

theorem authorizationBody_bit (granted : Nat → Bool) (holdoff : Nat) (ids : List Nat) {k : Nat} (hlo : 1 ≤ k)
    (hhi : k ≤ 80) :
    ((authorizationBody granted holdoff ids).getD ((k - 1) / 8) 0#8).getLsbD ((k - 1) % 8) = granted k := by
  have hbyte : (k - 1) / 8 < (slotSetBytes granted).length := by
    rw [slotSetBytes_length]
    omega
  rw [authorizationBody_eq, List.getD_append _ _ _ _ hbyte, slotSetBytes_bit granted hlo hhi]

theorem authorizationBody_drop (granted : Nat → Bool) (holdoff : Nat) (ids : List Nat) :
    (authorizationBody granted holdoff ids).drop 10 = [BitVec.ofNat 8 (holdoff / 256), BitVec.ofNat 8 holdoff,
      BitVec.ofNat 8 ids.length] ++ ids.map (BitVec.ofNat 8) := by
  rw [authorizationBody_eq, List.drop_left' (slotSetBytes_length granted)]

/-- The body that grants nothing, as a SUSPENDED and a CLOSING drop get it (R58). -/
theorem authorizationBody_none (holdoff : Nat) : authorizationBody (fun _ => false) holdoff [] =
    List.replicate 10 0#8 ++ [BitVec.ofNat 8 (holdoff / 256), BitVec.ofNat 8 holdoff, 0#8] := by
  rw [authorizationBody_eq, slotSetBytes_none]
  rfl

theorem inTiers_iff {t : TierSet} {n : Nat} : inTiers t n = true ↔ n = 0 ∨ t.getLsbD n = true := by
  simp [inTiers]

theorem grantsSlot_iff {s : State} {r : Drop} {k : Nat} : grantsSlot s r k = true ↔
    (s.slot k).cfg.enabled = true ∧ ((s.slot k).cfg.tier = 0 ∨ r.tiers.getLsbD (s.slot k).cfg.tier = true
      ∨ ∃ id ∈ r.events, ∃ n e, s.findEvent id = some (n, e) ∧ e.cfg.slot = k) := by
  simp only [grantsSlot, Bool.and_eq_true, Bool.or_eq_true, inTiers_iff, List.any_eq_true, Option.any_eq_true,
    Prod.exists, beq_iff_eq, or_assoc]

section

variable {s : State} {r : Drop}

theorem authorizationOf_active (h : r.service = .active) :
    authorizationOf s r = authorizationBody (grantsSlot s r) s.params.holdoff r.events := by
  simp [authorizationOf, h]

theorem authorizationOf_suspended (h : r.service = .suspended) :
    authorizationOf s r = authorizationBody (fun _ => false) s.params.holdoff [] := by
  simp [authorizationOf, h]

theorem authorizationOf_closing (h : r.service = .closing) :
    authorizationOf s r = authorizationBody (fun _ => false) 0 [] := by
  simp [authorizationOf, h]

end

/-! ## Frames (R56) -/

theorem frameHead_eq (f : Frame) : f.head = [f.kind, BitVec.ofNat 8 (f.address.toNat / 65536),
    BitVec.ofNat 8 (f.address.toNat / 256), BitVec.ofNat 8 f.address.toNat, BitVec.ofNat 8 f.body.length]
      ++ f.body := by
  simp [Frame.head, bytesOf_three]

theorem frameHead_length (f : Frame) : f.head.length = 5 + f.body.length := by
  simp only [frameHead_eq, List.length_append, List.length_cons, List.length_nil]

/-- The check covers what stands before it: the kind up to the last body byte (R56). -/
theorem frameBytes_take (f : Frame) : f.bytes.take (5 + f.body.length) = f.head :=
  List.take_left' (frameHead_length f)

/-- The check's two bytes, high byte first, say the check (R56). -/
theorem bytesOf_two_reads (c : BitVec 16) :
    ∃ hi lo, bytesOf 2 c.toNat = [hi, lo] ∧ hi.toNat * 256 + lo.toNat = c.toNat := by
  have hnum := numberOf_bytesOf 2 c.toNat c.isLt
  rw [bytesOf_two] at hnum
  exact ⟨_, _, bytesOf_two c.toNat, by simpa [numberOf] using hnum⟩

/-- Settles O60: an ACTIVE drop's body by its slot set, length and tail, a SUSPENDED or CLOSING drop's as the body that
grants nothing, and a frame as its head with the check of that head behind it. -/
theorem authorizationContent : Obligations.AuthorizationContent := by
  unfold Obligations.AuthorizationContent
  refine ⟨fun r s h => ?_, fun r s h => ?_, fun r s h => ?_, fun f => ?_⟩
  · rw [authorizationOf_active h]
    exact ⟨authorizationBody_length _ _ _,
      fun k hlo hhi => by rw [authorizationBody_bit _ _ _ hlo hhi, grantsSlot_iff],
      authorizationBody_drop _ _ _⟩
  · rw [authorizationOf_suspended h, authorizationBody_none]
  · rw [authorizationOf_closing h, authorizationBody_none]
    rfl
  · obtain ⟨hi, lo, hbytes, hcheck⟩ := bytesOf_two_reads (crc16 f.head)
    refine ⟨hi, lo, ?_, ?_⟩
    · rw [Frame.bytes, hbytes, frameHead_eq]
    · rw [frameBytes_take, hcheck]

end Sys2Proof.Proofs

/-! PROOFS. The drops' service verbs: DROP.CONNECT (O30) and DROP.TIERS, DROP.SUSPEND and DROP.SEND (O31). First the
rules every service verb shares: its checks in order, the records it writes, the drop it alone changes, the end of an
episode and the HOST request. -/

namespace Sys2Proof.Proofs

open Sys2Proof Sys2Proof.Machine Sys2Proof.Laws

/-! ## The checks of a service verb, in their order (R68) -/

/-- `f` is the reason word of the first of the checks that fails, and nothing when none does. -/
def FirstOf : List (Prop × Reason) → Option Reason → Prop
  | [], f => f = none
  | (fails, why) :: rest, f => (fails → f = some why) ∧ (¬fails → FirstOf rest f)

theorem firstOf_nil : FirstOf [] none := rfl

theorem firstOf_ite {b p : Prop} [Decidable b] {why : Reason} {rest : List (Prop × Reason)} {f : Option Reason}
    (hb : b ↔ p) (h : FirstOf rest f) : FirstOf ((p, why) :: rest) (if b then some why else f) := by
  refine ⟨fun hp => if_pos (hb.mpr hp), fun hp => ?_⟩
  rw [if_neg (mt hb.mp hp)]
  exact h

theorem firstOf_none {checks : List (Prop × Reason)} (h : FirstOf checks none) : ∀ e ∈ checks, ¬e.1 := by
  induction checks with
  | nil => simp
  | cons e rest ih =>
    obtain ⟨hfails, hrest⟩ := h
    have he : ¬e.1 := fun he => by simpa using hfails he
    exact List.forall_mem_cons.mpr ⟨he, ih (hrest he)⟩

theorem checked_of_firstOf {c : Instr} {l : Lane} {tag : Byte} {s : State} {checks : List (Prop × Reason)}
    {f : Option Reason} {ok : Prop} (h : FirstOf checks f) (hrefused : ∀ why, f = some why → Refuses c l tag why s)
    (hok : f = none → ok) : Checked c l tag s checks ok := by
  induction checks with
  | nil => exact hok h
  | cons e rest ih => exact ⟨fun he => hrefused _ (h.1 he), fun he => ih (h.2 he)⟩

/-- The checks of a verb whose refusal is their first that fails; an accepted verb has passed every one. -/
theorem checked_of_verb {c : Instr} {v : Verb} {l : Lane} {tag : Byte} {args : List Text} {s u : State} {d : Nat}
    {act : List Text → State → State × Reply} {checks : List (Prop × Reason)} {f : Option Reason} {ok : Prop}
    (hc : exec c s = dispatch v l act s) (h : Takes v l tag args s)
    (hact : act args (popLine l s) = f.elim (serviceReply d u) fun why => refuse why (popLine l s))
    (hfirst : FirstOf checks f)
    (hok : act args (popLine l s) = serviceReply d u → (∀ e ∈ checks, ¬e.1) → ok) : Checked c l tag s checks ok := by
  refine checked_of_firstOf hfirst (fun why hf => ?_) fun hf => ?_
  · exact refuses_of_effect hc h (by rw [hact, hf]; rfl)
  · subst hf
    exact hok hact (firstOf_none hfirst)

/-- An accepted service verb answers the drop's states after it (R68). -/
theorem accepts_of_serviceReply {c : Instr} {v : Verb} {l : Lane} {tag : Byte} {args : List Text} {s u : State}
    {d : Nat} {r : Reply} {act : List Text → State → State × Reply} {ps : List Part} {q : State → Prop}
    (hc : exec c s = dispatch v l act s) (h : Takes v l tag args s)
    (hact : act args (popLine l s) = serviceReply d u) (honly : OnlyChanges ps (popLine l s) u)
    (hps : Part.office ∉ ps) (hr : serviceWordsOf (u.drop d) = r) (hq : ∀ o, q (emit o u).report) :
    Accepts c l tag r s ps q :=
  accepts_of_effect hc h (by rw [hact, ← hr]; rfl) honly hps (hq _)

theorem oneDropVerb_of_unread {refusal : State → Nat → Option Reason} {effect : Nat → State → State} {args : List Text}
    {s : State} (hs : s.saving = false) (ha : one (argNum 0 2047) args = none) :
    oneDropVerb refusal effect args s = refuse .args s := by
  rcases args with _ | ⟨a, _ | ⟨b, rest⟩⟩
  · simp [oneDropVerb, hs]
  · have : argDrop a = none := ha
    simp [oneDropVerb, hs, this]
  · simp [oneDropVerb, hs]

theorem oneDropVerb_of_args {refusal : State → Nat → Option Reason} {effect : Nat → State → State} {args : List Text}
    {s : State} {d : Nat} (hs : s.saving = false) (ha : one (argNum 0 2047) args = some d) :
    oneDropVerb refusal effect args s
      = (refusal s d).elim (serviceReply d (effect d s)) fun why => refuse why s := by
  obtain ⟨a, rfl, ha⟩ := one_eq_some.mp ha
  have : argDrop a = some d := ha
  cases hf : refusal s d <;> simp [oneDropVerb, hs, this, hf]

/-- BUSY, ARGS and the checks of a service verb that takes a drop number alone. -/
theorem parsed_of_oneDropVerb {c : Instr} {v : Verb} {l : Lane} {tag : Byte} {args : List Text} {s : State}
    {refusal : State → Nat → Option Reason} {effect : Nat → State → State} {ok : Nat → Prop}
    (hc : exec c s = dispatch v l (oneDropVerb refusal effect) s) (h : Takes v l tag args s)
    (hok : ∀ d, oneDropVerb refusal effect args (popLine l s) = (refusal (popLine l s) d).elim
      (serviceReply d (effect d (popLine l s))) (fun why => refuse why (popLine l s)) → ok d) :
    Parsed c l tag s (one (argNum 0 2047) args) ok :=
  parsed_of_act hc h (fun hs => by simp [oneDropVerb, hs]) oneDropVerb_of_unread
    fun d hs ha => hok d (oneDropVerb_of_args hs ha)

/-! ## What the checks say -/

/-- A search of the listed records finds what a search of all would, when no blank record satisfies it. -/
theorem any_keys_iff {α : Type} {blank : α} {t : Table α} (p : α → Bool) (hp : p blank = false) :
    ((Table.keys t).any fun k => p (Table.get (fun _ => blank) t k)) = true
      ↔ ∃ k, p (Table.get (fun _ => blank) t k) = true := by
  simp only [List.any_eq_true]
  refine ⟨fun ⟨k, _, hk⟩ => ⟨k, hk⟩, fun ⟨k, hk⟩ => ⟨k, ?_, hk⟩⟩
  by_contra hlisted
  rw [get_of_not_mem_keys _ hlisted, hp] at hk
  exact Bool.noConfusion hk

theorem dropHasAddress_iff {s : State} {a : Addr} : dropHasAddress s a = true
    ↔ ∃ j, (s.drop j).service ≠ .vacant ∧ (s.drop j).address = some a := by
  have hany := any_keys_iff (blank := Drop.blank) (t := s.dtb.drops)
    (fun r => r.service != .vacant && r.address == some a) rfl
  simpa [dropHasAddress, State.dropKeys, State.drop] using hany

theorem unitHasAddress_iff {s : State} {a : Addr} : unitHasAddress s none a = true
    ↔ ∃ v, (s.unit v).cfg.kind ≠ .none ∧ (s.unit v).cfg.address = some a := by
  have hany := any_keys_iff (blank := PlantUnit.blank) (t := s.ppl.units)
    (fun r => r.defined && r.cfg.address == some a) rfl
  simpa [unitHasAddress, State.unitKeys, State.unit, PlantUnit.defined] using hany

/-- DROP.CONNECT's check for BUSY (R69). -/
theorem windowTaken_iff {s : State} {a : Addr} {d : Nat} : (windowCarries s a || windowNames s d) = true
    ↔ ∃ w ∈ s.csc.windows, w.address = a ∨ (w.kind ≠ .poll ∧ w.owner = d) := by
  simp only [windowCarries, windowNames, Bool.or_eq_true, List.any_eq_true, Bool.and_eq_true, beq_iff_eq, bne_iff_ne,
    ← exists_or, ← and_or_left]

theorem unserved_iff {r : Drop} : (!r.served) = true ↔ r.service ≠ .active ∧ r.service ≠ .suspended := by
  simp [Drop.served]

theorem free_iff {r : Drop} : r.free = true ↔ r.link = some .settled ∨ r.link = some .unconfirmed := by
  simp [Drop.free]

/-- The check for FULL that the verbs with a HOST request share (R66, R68). -/
theorem noPlaceFor_iff {s : State} {r : Drop} : (r.needsPlace && s.queueFull) = true ↔ NoPlaceFor r s := by
  simp only [Drop.needsPlace, State.queueFull, NoPlaceFor, Bool.and_eq_true, free_iff, Option.isNone_iff_eq_none,
    decide_eq_true_eq, and_assoc]

theorem journalShut_iff {s : State} : s.journalShut = true ↔ 4096 - s.bjn.held.length ≤ 256 := decide_eq_true_iff

/-! ## One drop alone -/

theorem onlyDrop_refl (d : Nat) (s : State) : OnlyDrop d s s := ⟨rfl, fun _ _ => rfl⟩

theorem onlyDrop_trans {d : Nat} {s t u : State} (h : OnlyDrop d s t) (g : OnlyDrop d t u) : OnlyDrop d s u :=
  ⟨g.1.trans h.1, fun j hj => (g.2 j hj).trans (h.2 j hj)⟩

theorem onlyDrop_of_setDrop (d : Nat) (r : Drop) (s : State) : OnlyDrop d s (s.setDrop d r) :=
  onlyDrop_setDrop (onlyDrop_refl d _)

theorem drop_congr {s t : State} (h : t.dtb = s.dtb) (d : Nat) : t.drop d = s.drop d := by
  unfold State.drop
  rw [h]

theorem onlyDrop_of_dtb {d : Nat} {s t : State} (h : t.dtb = s.dtb) : OnlyDrop d s t :=
  ⟨by rw [h], fun j _ => drop_congr h j⟩

/-! ## Records (R141, R144) -/

theorem attn_congr {s t : State} (h : t.ofp.attn = s.ofp.attn) (k : Kind) : t.attn k = s.attn k := by
  unfold State.attn
  rw [h]

theorem attn_raiseIf (b : Bool) (k j : Kind) (s : State) :
    (raiseIf b k s).attn j = if b = true ∧ j = k then (s.attn k).raised else s.attn j := by
  cases b <;> simp [raiseIf]

section WriteRecord

variable (b : JBody) (s : State)

@[simp] theorem writeRecord_dtb : (writeRecord b s).dtb = s.dtb := writeRecord_only b s .dtb (by simp)
@[simp] theorem writeRecord_tmb : (writeRecord b s).tmb = s.tmb := writeRecord_only b s .tmb (by simp)
@[simp] theorem writeRecord_params : (writeRecord b s).params = s.params := writeRecord_only b s .params (by simp)
@[simp] theorem writeRecord_drop (d : Nat) : (writeRecord b s).drop d = s.drop d := drop_congr (writeRecord_dtb b s) d

/-- The raises of R144 come after the append and do not touch the journal. -/
@[simp] theorem writeRecord_bjn : (writeRecord b s).bjn = (appendRecord b s).bjn :=
  ((raiseIf_only _ .journal (appendRecord b s)).trans (raiseIf_only _ .jfull _) .bjn (by simp))

end WriteRecord

theorem journalWith_snoc (bs : List JBody) (b : JBody) (s : State) : journalWith (bs ++ [b]) s =
    { s.bjn with
      held := (journalWith bs s).held
        ++ [⟨(journalWith bs s).nextSeq, s.tmb.station, s.tmb.uncertain, b⟩]
      nextSeq := (journalWith bs s).nextSeq + 1 } := by
  simp [journalWith, List.zipIdx_append, BitVec.ofNat_add, BitVec.add_assoc]

/-- The attention that a record raises (R144): JOURNAL at the watermark and JFULL when no record is free after it. -/
theorem attn_writeRecord (b : JBody) (s : State) (j : Kind) : (writeRecord b s).attn j =
    if (j = .journal ∧ 4096 - (writeRecord b s).bjn.held.length ≤ s.params.journalWatermark)
        ∨ (j = .jfull ∧ 4096 - (writeRecord b s).bjn.held.length = 0) then (s.attn j).raised else s.attn j := by
  have hwrite : writeRecord b s = raiseIf ((appendRecord b s).free == 0) .jfull
    (raiseIf ((appendRecord b s).free ≤ s.params.journalWatermark) .journal (appendRecord b s)) := rfl
  have happend : ∀ k, (appendRecord b s).attn k = s.attn k := fun _ => rfl
  have hfree : (appendRecord b s).free = 4096 - (writeRecord b s).bjn.held.length := by rw [writeRecord_bjn]; rfl
  rw [hfree] at hwrite
  generalize 4096 - (writeRecord b s).bjn.held.length = free at *
  rw [hwrite, attn_raiseIf, attn_raiseIf, attn_raiseIf, happend, happend, happend]
  cases j <;> simp

theorem writeRecord_wrote (b : JBody) (s : State) : Wrote [b] s (writeRecord b s) := by
  refine ⟨?_, fun k h1 h2 => ?_, ?_, ?_⟩
  · rw [writeRecord_bjn]
    simp [journalWith, appendRecord]
  all_goals simp [attn_writeRecord, *]

/-- One record more: a raise of a kind that is pending changes nothing (R169), so the last record alone decides the
attention. -/
theorem wrote_snoc {bs : List JBody} {s t : State} (b : JBody) (h : Wrote bs s t) (htmb : t.tmb = s.tmb)
    (hparams : t.params = s.params) : Wrote (bs ++ [b]) s (writeRecord b t) := by
  obtain ⟨hbjn, hother, hjournal, hjfull⟩ := h
  have hlen : (writeRecord b t).bjn.held.length = t.bjn.held.length + 1 := by simp [appendRecord]
  refine ⟨?_, fun k h1 h2 => ?_, ?_, ?_⟩
  · rw [writeRecord_bjn, journalWith_snoc, ← hbjn, ← htmb, appendRecord, hbjn]
    rfl
  · simp [attn_writeRecord, h1, h2, hother]
  · rw [attn_writeRecord, hparams, hjournal]
    by_cases hw : 4096 - t.bjn.held.length ≤ s.params.journalWatermark
    · have hw' : 4096 - (writeRecord b t).bjn.held.length ≤ s.params.journalWatermark := by omega
      rw [if_pos (.inl ⟨rfl, hw'⟩), if_pos hw, raised_raised, if_pos hw']
    · simp [hw]
  · rw [attn_writeRecord, hjfull]
    by_cases hf : 4096 - t.bjn.held.length = 0
    · have hf' : 4096 - (writeRecord b t).bjn.held.length = 0 := by omega
      rw [if_pos (.inr ⟨rfl, hf'⟩), if_pos hf, raised_raised, if_pos hf']
    · simp [hf]

/-- What was written is seen in the journal and the attention set, and stamped with the time alone. -/
theorem wrote_frame {ps qs : List Part} {bs : List JBody} {s s' t t' : State} (h : Wrote bs s t)
    (hs : OnlyChanges ps s' s) (ht : OnlyChanges qs t t') (hps : ∀ p ∈ [.attn, .bjn, .tmb, .params], p ∉ ps)
    (hqs : ∀ p ∈ [.attn, .bjn], p ∉ qs) : Wrote bs s' t' := by
  have hattn := attn_congr (hs .attn (hps _ (by simp)))
  have hattn' := attn_congr (ht .attn (hqs _ (by simp)))
  have hbjn : s.bjn = s'.bjn := hs .bjn (hps _ (by simp))
  have htmb : s.tmb = s'.tmb := hs .tmb (hps _ (by simp))
  have hparams : s.params = s'.params := hs .params (hps _ (by simp))
  have hbjn' : t'.bjn = t.bjn := ht .bjn (hqs _ (by simp))
  unfold Wrote journalWith at *
  simpa only [hattn, hattn', hbjn, htmb, hparams, hbjn'] using h

/-- What a verb has written stands after its reply. -/
theorem wrote_reply {bs : List JBody} {l : Lane} {s u : State} (h : Wrote bs (popLine l s) u) (o : OutLine) :
    Wrote bs s (emit o u).report :=
  wrote_frame h (popLine_only l s) (((emit_only o u).mono (qs := [.office, .marks]) (by simp)).trans
    ((report_only _).mono (by simp))) (by simp) (by simp)

/-! ## A drop's record written, with its journal record (R69 to R71) -/

/-- Drop `d` is written as `r`, and then a journal record. -/
def recorded (d : Nat) (r : Drop) (b : JBody) (s : State) : State := writeRecord b (s.setDrop d r)

section Recorded

variable (d : Nat) (r : Drop) (b : JBody) (s : State)

theorem recorded_drop : (recorded d r b s).drop d = r := by simp [recorded]

theorem recorded_only : OnlyChanges [.dtb, .bjn, .attn] s (recorded d r b s) :=
  ((setDrop_only d r s).mono (by simp)).trans ((writeRecord_only b _).mono (by simp))

theorem recorded_tmb : (recorded d r b s).tmb = s.tmb := recorded_only d r b s .tmb (by simp)

theorem recorded_params : (recorded d r b s).params = s.params := recorded_only d r b s .params (by simp)

theorem recorded_queue : (recorded d r b s).aen.queue = s.aen.queue := recorded_only d r b s .queue (by simp)

theorem recorded_ppl : (recorded d r b s).ppl = s.ppl := recorded_only d r b s .ppl (by simp)

theorem recorded_olz : (recorded d r b s).olz = s.olz := recorded_only d r b s .olz (by simp)

theorem recorded_onlyDrop : OnlyDrop d s (recorded d r b s) :=
  onlyDrop_trans (onlyDrop_of_setDrop d r s) (onlyDrop_of_dtb (writeRecord_dtb b _))

theorem recorded_wrote : Wrote [b] s (recorded d r b s) :=
  wrote_frame (writeRecord_wrote b _) (setDrop_only d r s) (OnlyChanges.refl [] _) (by simp) (by simp)

/-- A journal that is not shut has a record free for a credit behind this one (R142). -/
theorem recorded_free (hopen : ¬4096 - s.bjn.held.length ≤ 256) : 1 ≤ (recorded d r b s).free := by
  have hlen : (recorded d r b s).bjn.held.length = s.bjn.held.length + 1 := by simp [recorded, appendRecord]
  unfold State.free
  omega

end Recorded

/-! ## The end of an episode (R132) -/

/-- The drop without the accrual of its episode. -/
def accrualEnded (d : Nat) (s : State) : State :=
  match (s.drop d).accrual with
  | none => s
  | some _ => s.setDrop d { s.drop d with accrual := none }

section EndEpisode

variable (d : Nat) (s : State)

theorem accrualEnded_only : OnlyChanges [.dtb] s (accrualEnded d s) := by
  unfold accrualEnded
  split
  · exact OnlyChanges.refl _ s
  · exact setDrop_only d _ s

theorem accrualEnded_onlyDrop : OnlyDrop d s (accrualEnded d s) := by
  unfold accrualEnded
  split
  · exact onlyDrop_refl d s
  · exact onlyDrop_of_setDrop d _ s

theorem accrualEnded_drop : (accrualEnded d s).drop d = { s.drop d with accrual := none } := by
  unfold accrualEnded
  split
  · next h => rw [← h]
  · simp

variable {d s}

/-- With a free record, an episode's end is the end of its accrual and the record of its credit, if it earns one. -/
theorem endEpisode_eq (hfree : 1 ≤ s.free) : endEpisode d s =
    (episodeCredit d (s.drop d) s).foldl (fun t b => writeRecord b t) (accrualEnded d s) := by
  cases ha : (s.drop d).accrual with
  | none => simp [endEpisode, episodeCredit, accrualEnded, ha]
  | some since =>
    have hminutes : creditMinutes s.params.creditThreshold (s.tmb.run - since).toNat =
        episodeMinutes (s.drop d) s := by
      simp [episodeMinutes, ha, creditMinutes]
    have hfree' : 1 ≤ (s.setDrop d { s.drop d with accrual := none }).free := hfree
    by_cases hm : episodeMinutes (s.drop d) s = 0
    · simp only [endEpisode, episodeCredit, accrualEnded, ha, hminutes, hm, if_true, List.foldl_nil]
    · simp only [endEpisode, episodeCredit, accrualEnded, ha, hminutes, hm, if_false, handCredit, hfree', if_true,
        drop_setDrop, List.foldl_cons, List.foldl_nil]

theorem endEpisode_drop (hfree : 1 ≤ s.free) : (endEpisode d s).drop d = { s.drop d with accrual := none } := by
  rw [endEpisode_eq hfree, ← accrualEnded_drop]
  exact drop_congr ((OnlyChanges.foldl _ (fun t b => writeRecord_only b t) _ _) .dtb (by simp)) d

theorem endEpisode_onlyDrop (hfree : 1 ≤ s.free) : OnlyDrop d s (endEpisode d s) := by
  rw [endEpisode_eq hfree]
  exact onlyDrop_trans (accrualEnded_onlyDrop d s)
    (onlyDrop_of_dtb ((OnlyChanges.foldl _ (fun t b => writeRecord_only b t) _ _) .dtb (by simp)))

theorem wrote_records {bs : List JBody} {s t : State} (h : Wrote bs s t) (htmb : t.tmb = s.tmb)
    (hparams : t.params = s.params) (cs : List JBody) :
    Wrote (bs ++ cs) s (cs.foldl (fun t b => writeRecord b t) t) := by
  induction cs generalizing bs t with
  | nil => simpa using h
  | cons b cs ih =>
    have hb := ih (wrote_snoc b h htmb hparams) (by simpa using htmb) (by simpa using hparams)
    simpa using hb

/-- The credit of an episode that ends stands behind the records written before it. -/
theorem endEpisode_wrote {bs : List JBody} {s₀ : State} (h : Wrote bs s₀ s) (htmb : s.tmb = s₀.tmb)
    (hparams : s.params = s₀.params) (hfree : 1 ≤ s.free) :
    Wrote (bs ++ episodeCredit d (s.drop d) s) s₀ (endEpisode d s) := by
  rw [endEpisode_eq hfree]
  have honly := accrualEnded_only d s
  exact wrote_records (wrote_frame h (OnlyChanges.refl [] s₀) honly (by simp) (by simp))
    (Eq.trans (honly .tmb (by simp)) htmb) (Eq.trans (honly .params (by simp)) hparams) _

end EndEpisode

/-- A drop's credit is made of its account, outage and accrual, the time and the parameters. -/
theorem episodeCredit_congr {d : Nat} {r x : Drop} {s t : State} (haccount : x.account = r.account)
    (houtage : x.outage = r.outage) (haccrual : x.accrual = r.accrual) (htmb : t.tmb = s.tmb)
    (hparams : t.params = s.params) : episodeCredit d x t = episodeCredit d r s := by
  unfold episodeCredit episodeMinutes
  rw [haccount, houtage, haccrual, htmb, hparams]

/-! ## The HOST request (R66) -/

theorem queueRequest_onlyDrop (c : QClass) (urgent : Bool) (d : Nat) (s : State) :
    OnlyDrop d s (queueRequest c urgent d s).1 := by
  unfold queueRequest
  dsimp only
  split
  · exact onlyDrop_refl d s
  · split_ifs
    · exact onlyDrop_of_dtb rfl
    · exact onlyDrop_refl d s
  · exact onlyDrop_of_setDrop d _ s
  · exact onlyDrop_refl d s
  · split
    · exact onlyDrop_of_setDrop d _ s
    · split
      · exact onlyDrop_trans (onlyDrop_of_dtb rfl) (onlyDrop_of_setDrop d _ _)
      · exact onlyDrop_refl d s

theorem request_onlyDrop (c : QClass) (urgent : Bool) (d : Nat) (s : State) : OnlyDrop d s (request c urgent d s) :=
  queueRequest_onlyDrop c urgent d s

/-- The HOST request of a SETTLED or UNCONFIRMED drop that has a place where it needs one. -/
theorem request_host_of_free {d : Nat} {s : State} {r : Drop} (hr : s.drop d = r)
    (hfree : r.link = some .settled ∨ r.link = some .unconfirmed) (hplace : ¬NoPlaceFor r s) :
    ((request .host false d s).drop d, (request .host false d s).aen.queue)
      = hostRequested.ifFree d s.aen.queue r := by
  have hreq : request .host false d s =
      if r.outage.isSome then s.setDrop d { r with link := some .parked }
      else if s.aen.queue.length < 64 then
        (s.setQueue (s.aen.queue ++ [⟨d, false⟩])).setDrop d { r with link := some .queued, attempts := 0 }
      else s := by
    rcases hfree with h | h <;>
      simp only [request, queueRequest, hr, h, QClass.limit, placeEntry, Bool.false_eq_true, if_false, reduceCtorEq] <;>
      split_ifs <;> rfl
  rw [hreq, hostRequested.ifFree]
  cases ho : r.outage with
  | some n => simp
  | none =>
    have hroom : s.aen.queue.length < 64 := by
      by_contra hfull
      exact hplace ⟨hfree, ho, Nat.le_of_not_lt hfull⟩
    simp [hroom]

/-- The HOST request of a drop that has a place where it needs one, by the drop's link state (the table of R66). -/
theorem request_host {d : Nat} {s : State} {r : Drop} (hr : s.drop d = r) (hplace : ¬NoPlaceFor r s) :
    ((request .host false d s).drop d, (request .host false d s).aen.queue) = hostRequested d r s.aen.queue := by
  cases hl : r.link with
  | none => simp [request, queueRequest, hostRequested, hr, hl]
  | some k =>
    cases k with
    | queued => simp [request, queueRequest, hostRequested, hr, hl]
    | awaiting => simp [request, queueRequest, hostRequested, hr, hl]
    | parked => simp [request, queueRequest, hostRequested, hr, hl]
    | settled => simpa only [hostRequested, hl] using request_host_of_free hr (.inl hl) hplace
    | unconfirmed => simpa only [hostRequested, hl] using request_host_of_free hr (.inr hl) hplace

/-- With its attempts set to 0 before the request or after it, a SETTLED or UNCONFIRMED drop becomes the same. -/
theorem hostRequested_attempts {d : Nat} {r : Drop} (q : List QEntry)
    (hfree : r.link = some .settled ∨ r.link = some .unconfirmed) : hostRequested d { r with attempts := 0 } q =
      ({ (hostRequested d r q).1 with attempts := 0 }, (hostRequested d r q).2) := by
  rcases hfree with h | h <;> cases ho : r.outage <;> simp [hostRequested, hostRequested.ifFree, h, ho]

/-! ## DROP.CONNECT -/

theorem path_congr {s t : State} (h : t.ppl = s.ppl) : t.path = s.path := by
  have hunit : t.unit = s.unit := by
    funext u
    simp only [State.unit, h]
  have hpath : ∀ fuel u, pathFrom t fuel u = pathFrom s fuel u := by
    intro fuel
    induction fuel with
    | zero => exact fun _ => rfl
    | succ fuel ih =>
      intro u
      simp only [pathFrom, hunit, ih]
  funext u
  exact hpath 24 u

/-- The proper outage of a unit lies in the plant and the log (R121). -/
theorem properAt_congr {s t : State} (hppl : t.ppl = s.ppl) (holz : t.olz = s.olz) (u : Nat) :
    t.properAt u = s.properAt u := by
  unfold State.properAt State.openAt
  rw [path_congr hppl, holz]

theorem credits_congr {s t : State} (h : t.olz = s.olz) (n : Nat) : t.credits n = s.credits n := by
  unfold State.credits State.record
  rw [h]

theorem laterRun_now (now a : Word) : laterRun now a now = now := by
  unfold laterRun
  split
  · next h =>
    rw [BitVec.sub_self, BitVec.le_zero_iff] at h
    bv_omega
  · rfl

/-- A drop whose last outage end is now starts its accrual now in a record that credits its drops (R131). -/
theorem accrual_from_now {s : State} {n : Nat} : (if s.credits n = true then
      (s.record n).map fun o => episodeStart s.tmb.run o (some s.tmb.run) else none)
    = if s.credits n then some s.tmb.run else none := by
  by_cases hc : s.credits n = true
  · have hrecord : ∃ o, s.record n = some o := by
      cases hr : s.record n with
      | none => simp [State.credits, hr] at hc
      | some o => exact ⟨o, rfl⟩
    obtain ⟨o, ho⟩ := hrecord
    simp [hc, ho, episodeStart, laterRun_now]
  · simp [hc]

theorem enterOutage_drop (d n : Nat) (s : State) : (enterOutage d n s).drop d = { s.drop d with
    outage := some n
    accrual := if (s.drop d).service = .active ∧ s.credits n then
      (s.record n).map fun o => episodeStart s.tmb.run o (s.drop d).lastEnd else none } := by
  simp [enterOutage, enterCount, State.drop, mapRecord_dtb, get_set_same, State.setDrop]

theorem enterOutage_onlyDrop (d n : Nat) (s : State) : OnlyDrop d s (enterOutage d n s) :=
  onlyDrop_trans (onlyDrop_of_setDrop d _ s) (onlyDrop_of_dtb rfl)

theorem enterOutage_olz (d n : Nat) (s : State) : (enterOutage d n s).olz =
    { s.olz with log := s.olz.log.map fun o => if o.number = n then o.oneMore else o } := rfl

/-- An ACTIVE and UNCONFIRMED drop in no outage enters one and keeps its link state (R80, R131). -/
theorem transition_of_unconfirmed {d n : Nat} {s : State} (houtage : (s.drop d).outage = none)
    (hservice : (s.drop d).service = .active) (hlink : (s.drop d).link = some .unconfirmed) :
    transition d (some n) s = enterOutage d n s := by
  have hentered : ((enterOutage d n s).drop d).link = some .unconfirmed := by rw [enterOutage_drop, hlink]
  simp [transition, houtage, hservice, markLink, hentered]

theorem connectRefusal_firstOf (s : State) (d : Nat) (a : Addr) (u : Nat) : FirstOf
    [((s.drop d).service ≠ .vacant, .state), (0 < (s.drop d).pending, .pendingCredit),
      ((s.unit u).cfg.kind = .none, .args),
      ((∃ j, (s.drop j).service ≠ .vacant ∧ (s.drop j).address = some a)
        ∨ (∃ v, (s.unit v).cfg.kind ≠ .none ∧ (s.unit v).cfg.address = some a), .duplicate),
      (∃ w ∈ s.csc.windows, w.address = a ∨ (w.kind ≠ .poll ∧ w.owner = d), .busy),
      (4096 - s.bjn.held.length ≤ 256, .journal),
      (64 ≤ s.aen.queue.length ∧ s.properAt u = none, .full)] (connectRefusal s d a u) := by
  refine firstOf_ite Iff.rfl <| firstOf_ite Iff.rfl <| firstOf_ite ?_ <| firstOf_ite ?_ <|
    firstOf_ite windowTaken_iff <| firstOf_ite journalShut_iff <| firstOf_ite ?_ firstOf_nil
  · simp [PlantUnit.defined]
  · rw [Bool.or_eq_true, dropHasAddress_iff, unitHasAddress_iff]
  · simp [State.queueFull]

section Connect

variable (d : Nat) (a : Addr) (account : Word) (u : Nat) (tiers : TierSet) (s : State)

/-- The state in which a connected drop looks for its outage or makes its request (R69, steps 1 to 3). -/
def withConnected : State :=
  recorded d (Drop.connected a account u tiers s.tmb.run) (.connect d (some account) (some a) tiers) s

theorem withConnected_drop :
    (withConnected d a account u tiers s).drop d = Drop.connected a account u tiers s.tmb.run := recorded_drop ..

theorem withConnected_only : OnlyChanges [.dtb, .bjn, .attn] s (withConnected d a account u tiers s) :=
  recorded_only d _ _ s

theorem withConnected_onlyDrop : OnlyDrop d s (withConnected d a account u tiers s) := recorded_onlyDrop ..

theorem withConnected_wrote :
    Wrote [.connect d (some account) (some a) tiers] s (withConnected d a account u tiers s) := recorded_wrote ..

theorem withConnected_proper : (withConnected d a account u tiers s).proper d = s.properAt u := by
  have hproper : ∀ v, (withConnected d a account u tiers s).properAt v = s.properAt v :=
    properAt_congr (recorded_ppl ..) (recorded_olz ..)
  rw [State.proper, withConnected_drop]
  exact hproper u

variable {d a account u tiers s}

theorem connectEffect_eq : connectEffect d a account u tiers s =
    let s₃ := transition d (s.properAt u) (withConnected d a account u tiers s)
    if (s₃.drop d).outage.isSome then s₃.setDrop d { s₃.drop d with link := some .parked }
    else request .host false d s₃ := by
  rw [← withConnected_proper d a account u tiers s]
  rfl

/-- In no outage the connected drop is QUEUED (R69). -/
theorem connectEffect_queued (h : s.properAt u = none) : connectEffect d a account u tiers s =
    request .host false d (withConnected d a account u tiers s) := by
  have houtage : (Drop.connected a account u tiers s.tmb.run).outage = none := rfl
  simp [connectEffect_eq, h, transition, withConnected_drop, houtage]

/-- The connected drop enters its proper outage and is PARKED (R69). -/
theorem connectEffect_parked {n : Nat} (h : s.properAt u = some n) : connectEffect d a account u tiers s =
    let s₃ := enterOutage d n (withConnected d a account u tiers s)
    s₃.setDrop d { s₃.drop d with link := some .parked } := by
  have hdrop := withConnected_drop d a account u tiers s
  have hentered := transition_of_unconfirmed (n := n) (by rw [hdrop]; rfl) (by rw [hdrop]; rfl) (by rw [hdrop]; rfl)
  simp [connectEffect_eq, h, hentered, enterOutage_drop]

/-- The record of a drop that DROP.CONNECT has put into outage `n` (R69, R131). -/
theorem connectEffect_parked_drop {n : Nat} (h : s.properAt u = some n) :
    (connectEffect d a account u tiers s).drop d = { Drop.connected a account u tiers s.tmb.run with
      link := some .parked
      outage := some n
      accrual := if s.credits n then some s.tmb.run else none } := by
  have holz : (withConnected d a account u tiers s).olz = s.olz := recorded_olz ..
  have htmb : (withConnected d a account u tiers s).tmb = s.tmb := recorded_tmb ..
  have haccrual := accrual_from_now (s := withConnected d a account u tiers s) (n := n)
  rw [credits_congr holz, htmb] at haccrual
  rw [connectEffect_parked h, drop_setDrop, if_pos rfl, enterOutage_drop, withConnected_drop, credits_congr holz, htmb,
    ← haccrual]
  simp [Drop.connected]

theorem connectEffect_parked_olz {n : Nat} (h : s.properAt u = some n) : (connectEffect d a account u tiers s).olz =
    { s.olz with log := s.olz.log.map fun o => if o.number = n then o.oneMore else o } := by
  have holz : (withConnected d a account u tiers s).olz = s.olz := recorded_olz ..
  rw [connectEffect_parked h, setDrop_olz, enterOutage_olz, holz]

theorem connectEffect_parked_only {n : Nat} (h : s.properAt u = some n) :
    OnlyChanges [.dtb, .bjn, .attn, .olz] s (connectEffect d a account u tiers s) := by
  rw [connectEffect_parked h]
  have hconnected := withConnected_only d a account u tiers s
  exact ((hconnected.mono (by simp)).trans ((enterOutage_only d n _).mono (by simp))).trans
    ((setDrop_only d _ _).mono (by simp))

theorem connectEffect_queued_only (h : s.properAt u = none) :
    OnlyChanges [.dtb, .bjn, .attn, .queue] s (connectEffect d a account u tiers s) := by
  rw [connectEffect_queued h]
  exact ((withConnected_only d a account u tiers s).mono (by simp)).trans ((request_only _ _ d _).mono (by simp))

theorem connectEffect_onlyDrop : OnlyDrop d s (connectEffect d a account u tiers s) := by
  have hconnected := withConnected_onlyDrop d a account u tiers s
  cases h : s.properAt u with
  | none =>
    rw [connectEffect_queued h]
    exact onlyDrop_trans hconnected (request_onlyDrop _ _ d _)
  | some n =>
    rw [connectEffect_parked h]
    exact onlyDrop_trans hconnected (onlyDrop_trans (enterOutage_onlyDrop d n _) (onlyDrop_of_setDrop d _ _))

theorem connectEffect_wrote :
    Wrote [.connect d (some account) (some a) tiers] s (connectEffect d a account u tiers s) := by
  have hconnected := withConnected_wrote d a account u tiers s
  cases h : s.properAt u with
  | none =>
    rw [connectEffect_queued h]
    exact wrote_frame hconnected (OnlyChanges.refl [] s) (request_only _ _ d _) (by simp) (by simp)
  | some n =>
    rw [connectEffect_parked h]
    exact wrote_frame hconnected (OnlyChanges.refl [] s)
      ((enterOutage_only d n _).trans ((setDrop_only d _ _).mono (by simp))) (by simp) (by simp)

/-- The record and the queue after a DROP.CONNECT in no outage: a place at the tail (R66, R69). -/
theorem connectEffect_queued_drop (h : s.properAt u = none) (hroom : ¬64 ≤ s.aen.queue.length) :
    ((connectEffect d a account u tiers s).drop d, (connectEffect d a account u tiers s).aen.queue)
      = ({ Drop.connected a account u tiers s.tmb.run with link := some .queued }, s.aen.queue ++ [⟨d, false⟩]) := by
  have hqueue : (withConnected d a account u tiers s).aen.queue = s.aen.queue := recorded_queue ..
  rw [connectEffect_queued h, request_host (withConnected_drop d a account u tiers s), hqueue]
  · rfl
  · rintro ⟨-, -, hfull⟩
    exact hroom (hqueue ▸ hfull)

variable (d a account u tiers s)

/-- What an accepted DROP.CONNECT leaves (R69): its record, its drop, and the queue or the log. -/
theorem connectEffect_spec :
    let t := connectEffect d a account u tiers s
    let r := Drop.connected a account u tiers s.tmb.run
    Wrote [.connect d (some account) (some a) tiers] s t ∧ OnlyDrop d s t
      ∧ (s.properAt u = none → ¬64 ≤ s.aen.queue.length → OnlyChanges [.dtb, .bjn, .attn, .queue] s t
          ∧ (t.drop d, t.aen.queue) = ({ r with link := some .queued }, s.aen.queue ++ [⟨d, false⟩]))
      ∧ ∀ n, s.properAt u = some n → OnlyChanges [.dtb, .bjn, .attn, .olz] s t
          ∧ t.drop d = { r with
              link := some .parked, outage := some n, accrual := if s.credits n then some s.tmb.run else none }
          ∧ t.olz = { s.olz with log := s.olz.log.map fun o => if o.number = n then o.oneMore else o } :=
  ⟨connectEffect_wrote, connectEffect_onlyDrop, fun h hroom => ⟨connectEffect_queued_only h,
    connectEffect_queued_drop h hroom⟩, fun _ h => ⟨connectEffect_parked_only h, connectEffect_parked_drop h,
    connectEffect_parked_olz h⟩⟩

end Connect

theorem dropConnectVerb_of_args {args : List Text} {s : State} {d u : Nat} {a : Addr} {account : Word}
    {tiers : TierSet} (hs : s.saving = false) (ha : argsConnect args = some (d, a, account, u, tiers)) :
    dropConnectVerb args s =
      (connectRefusal s d a u).elim (serviceReply d (connectEffect d a account u tiers s))
        fun why => refuse why s := by
  cases hf : connectRefusal s d a u <;> simp [dropConnectVerb, hs, ha, hf]

/-- Settles O30: the checks by `connectRefusal_firstOf`, then the effect by the feeding unit's proper outage. -/
theorem dropConnectEffects : Obligations.DropConnectEffects := by
  unfold Obligations.DropConnectEffects
  intro l tag args s h
  refine parsed_of_act rfl h (fun hs => by simp [dropConnectVerb, hs]) (fun hs ha => by simp [dropConnectVerb, hs, ha])
    fun (d, a, account, u, tiers) hs ha => ?_
  have hproper : (popLine l s).properAt u = s.properAt u := properAt_congr rfl rfl u
  have hcredits : ∀ n, (popLine l s).credits n = s.credits n := credits_congr rfl
  have hfirst := connectRefusal_firstOf (popLine l s) d a u
  rw [hproper] at hfirst
  refine checked_of_verb rfl h (dropConnectVerb_of_args hs ha) hfirst fun hacc hpassed => ?_
  have hroom : ¬(64 ≤ s.aen.queue.length ∧ s.properAt u = none) := hpassed (_, .full) (by simp)
  obtain ⟨hwrote, hother, hqueued, hparked⟩ := connectEffect_spec d a account u tiers (popLine l s)
  simp only [hproper, hcredits] at hqueued hparked
  generalize connectEffect d a account u tiers (popLine l s) = t at *
  refine ⟨fun hnone => ?_, fun n hn => ?_⟩
  · obtain ⟨honly, hrequest⟩ := hqueued hnone fun hfull => hroom ⟨hfull, hnone⟩
    obtain ⟨hdrop, hqueue⟩ := Prod.mk.inj hrequest
    exact accepts_of_serviceReply rfl h hacc honly (by simp) (by rw [hdrop]; rfl) fun o =>
      ⟨wrote_reply hwrote o, hother, hdrop, hqueue⟩
  · obtain ⟨honly, hdrop, holz⟩ := hparked n hn
    exact accepts_of_serviceReply rfl h hacc honly (by simp) (by rw [hdrop]; rfl) fun o =>
      ⟨wrote_reply hwrote o, hother, hdrop, holz⟩

/-! ## DROP.TIERS -/

theorem tiersRefusal_firstOf (s : State) (d : Nat) : FirstOf
    [((s.drop d).service ≠ .active ∧ (s.drop d).service ≠ .suspended, .state),
      (4096 - s.bjn.held.length ≤ 256, .journal),
      ((s.drop d).service = .active ∧ NoPlaceFor (s.drop d) s, .full)] (tiersRefusal s d) := by
  refine firstOf_ite unserved_iff <| firstOf_ite journalShut_iff <| firstOf_ite ?_ firstOf_nil
  rw [Bool.and_assoc, Bool.and_eq_true, noPlaceFor_iff, beq_iff_eq]

theorem two_eq_some {α β : Type} {f : Text → Option α} {g : Text → Option β} {args : List Text} {x : α} {y : β} :
    two f g args = some (x, y) ↔ ∃ a b, args = [a, b] ∧ f a = some x ∧ g b = some y := by
  rcases args with _ | ⟨a, _ | ⟨b, _ | ⟨c, rest⟩⟩⟩ <;> simp [two, Option.bind_eq_some_iff]

theorem dropTiersVerb_of_unread {args : List Text} {s : State} (hs : s.saving = false)
    (ha : two (argNum 0 2047) argTiers args = none) : dropTiersVerb args s = refuse .args s := by
  rcases args with _ | ⟨a, _ | ⟨b, _ | ⟨c, rest⟩⟩⟩
  · simp [dropTiersVerb, hs]
  · simp [dropTiersVerb, hs]
  · cases hd : argDrop a with
    | none => simp [dropTiersVerb, hs, hd]
    | some d =>
      have hd' : argNum 0 2047 a = some d := hd
      have ht : argTiers b = none := by simpa [two, hd'] using ha
      simp [dropTiersVerb, hs, hd, ht]
  · simp [dropTiersVerb, hs]

theorem dropTiersVerb_of_args {args : List Text} {s : State} {d : Nat} {tiers : TierSet} (hs : s.saving = false)
    (ha : two (argNum 0 2047) argTiers args = some (d, tiers)) : dropTiersVerb args s =
      (tiersRefusal s d).elim (serviceReply d (tiersEffect d tiers s)) fun why => refuse why s := by
  obtain ⟨a, b, rfl, had, hat⟩ := two_eq_some.mp ha
  have : argDrop a = some d := had
  cases hf : tiersRefusal s d <;> simp [dropTiersVerb, hs, this, hat, hf]

section Tiers

variable (d : Nat) (tiers : TierSet) (s : State)

/-- The state in which DROP.TIERS makes its request (R70). -/
def withTiers : State :=
  recorded d { s.drop d with tiers := tiers } (.tiers d (s.drop d).account (s.drop d).tiers tiers) s

theorem withTiers_drop : (withTiers d tiers s).drop d = { s.drop d with tiers := tiers } := recorded_drop ..

theorem withTiers_queue : (withTiers d tiers s).aen.queue = s.aen.queue := recorded_queue ..

theorem withTiers_wrote : Wrote [.tiers d (s.drop d).account (s.drop d).tiers tiers] s (withTiers d tiers s) :=
  recorded_wrote ..

/-- An accepted DROP.TIERS (R70): an ACTIVE drop makes a HOST request, a SUSPENDED one none. -/
theorem tiersEffect_eq : tiersEffect d tiers s =
    if (s.drop d).service = .active then request .host false d (withTiers d tiers s) else withTiers d tiers s := rfl

theorem tiersEffect_only : OnlyChanges [.dtb, .bjn, .attn, .queue] s (tiersEffect d tiers s) := by
  have hwritten : OnlyChanges [.dtb, .bjn, .attn, .queue] s (withTiers d tiers s) :=
    (recorded_only d _ _ s).mono (by simp)
  exact (hwritten.trans ((request_only _ _ d _).mono (by simp))).ite hwritten

theorem tiersEffect_onlyDrop : OnlyDrop d s (tiersEffect d tiers s) := by
  rw [tiersEffect_eq]
  split
  · exact onlyDrop_trans (recorded_onlyDrop ..) (request_onlyDrop _ _ d _)
  · exact recorded_onlyDrop ..

theorem tiersEffect_wrote : Wrote [.tiers d (s.drop d).account (s.drop d).tiers tiers] s (tiersEffect d tiers s) := by
  rw [tiersEffect_eq]
  split
  · exact wrote_frame (withTiers_wrote d tiers s) (OnlyChanges.refl [] s) (request_only _ _ d _) (by simp) (by simp)
  · exact withTiers_wrote d tiers s

theorem tiersEffect_drop (hplace : ¬((s.drop d).service = .active ∧ NoPlaceFor (s.drop d) s)) :
    ((tiersEffect d tiers s).drop d, (tiersEffect d tiers s).aen.queue) =
      if (s.drop d).service = .active then hostRequested d { s.drop d with tiers := tiers } s.aen.queue
      else ({ s.drop d with tiers := tiers }, s.aen.queue) := by
  rw [tiersEffect_eq]
  split_ifs with hactive
  · rw [request_host (withTiers_drop d tiers s), withTiers_queue]
    rintro ⟨hfree, houtage, hfull⟩
    exact hplace ⟨hactive, hfree, houtage, withTiers_queue d tiers s ▸ hfull⟩
  · rw [withTiers_drop, withTiers_queue]

end Tiers

/-! ## DROP.SUSPEND -/

theorem suspendRefusal_firstOf (s : State) (d : Nat) : FirstOf
    [((s.drop d).service ≠ .active, .state), (s.guarded (d / 256) = true, .guarded),
      (4096 - s.bjn.held.length ≤ 256, .journal), (NoPlaceFor (s.drop d) s, .full)] (suspendRefusal s d) :=
  firstOf_ite Iff.rfl <| firstOf_ite Iff.rfl <| firstOf_ite journalShut_iff <| firstOf_ite noPlaceFor_iff firstOf_nil

section Suspend

variable (d : Nat) (s : State)

/-- The state in which DROP.SUSPEND ends the drop's episode (R71). -/
def withSuspend : State :=
  recorded d { s.drop d with service := .suspended } (.suspend d (s.drop d).account) s

theorem withSuspend_drop : (withSuspend d s).drop d = { s.drop d with service := .suspended } := recorded_drop ..

theorem withSuspend_only : OnlyChanges [.dtb, .bjn, .attn] s (withSuspend d s) := recorded_only d _ _ s

theorem withSuspend_wrote : Wrote [.suspend d (s.drop d).account] s (withSuspend d s) := recorded_wrote ..

theorem withSuspend_free (hopen : ¬4096 - s.bjn.held.length ≤ 256) : 1 ≤ (withSuspend d s).free :=
  recorded_free d _ _ s hopen

theorem suspendEffect_eq : suspendEffect d s = request .host false d (endEpisode d (withSuspend d s)) := rfl

theorem suspendEffect_only : OnlyChanges [.dtb, .bjn, .attn, .queue] s (suspendEffect d s) :=
  (((withSuspend_only d s).mono (by simp)).trans ((endEpisode_only d _).mono (by simp))).trans
    ((request_only _ _ d _).mono (by simp))

variable {s}

theorem suspendEffect_onlyDrop (hopen : ¬4096 - s.bjn.held.length ≤ 256) : OnlyDrop d s (suspendEffect d s) := by
  have hsuspended : OnlyDrop d s (withSuspend d s) := recorded_onlyDrop ..
  exact onlyDrop_trans hsuspended
    (onlyDrop_trans (endEpisode_onlyDrop (withSuspend_free d s hopen)) (request_onlyDrop _ _ d _))

theorem suspendEffect_wrote (hopen : ¬4096 - s.bjn.held.length ≤ 256) :
    Wrote ([.suspend d (s.drop d).account] ++ episodeCredit d (s.drop d) s) s (suspendEffect d s) := by
  have htmb : (withSuspend d s).tmb = s.tmb := recorded_tmb ..
  have hparams : (withSuspend d s).params = s.params := recorded_params ..
  have hcredit : episodeCredit d ((withSuspend d s).drop d) (withSuspend d s) = episodeCredit d (s.drop d) s := by
    rw [withSuspend_drop]
    exact episodeCredit_congr rfl rfl rfl htmb hparams
  rw [← hcredit]
  exact wrote_frame (endEpisode_wrote (withSuspend_wrote d s) htmb hparams (withSuspend_free d s hopen))
    (OnlyChanges.refl [] s) (request_only _ _ d _) (by simp) (by simp)

theorem suspendEffect_drop (hopen : ¬4096 - s.bjn.held.length ≤ 256) (hplace : ¬NoPlaceFor (s.drop d) s) :
    ((suspendEffect d s).drop d, (suspendEffect d s).aen.queue) =
      hostRequested d { s.drop d with service := .suspended, accrual := none } s.aen.queue := by
  have hqueue : (endEpisode d (withSuspend d s)).aen.queue = s.aen.queue :=
    (withSuspend_only d s .queue (by simp)).trans (endEpisode_only d (withSuspend d s) .queue (by simp))
  have hdrop : (endEpisode d (withSuspend d s)).drop d =
      { s.drop d with service := .suspended, accrual := none } := by
    rw [endEpisode_drop (withSuspend_free d s hopen), withSuspend_drop]
  rw [suspendEffect_eq, request_host hdrop, hqueue]
  rintro ⟨hfree, houtage, hfull⟩
  exact hplace ⟨hfree, houtage, hqueue ▸ hfull⟩

end Suspend

/-! ## DROP.SEND -/

theorem sendRefusal_firstOf (s : State) (d : Nat) : FirstOf
    [((s.drop d).service ≠ .active ∧ (s.drop d).service ≠ .suspended, .state), (NoPlaceFor (s.drop d) s, .full)]
    (sendRefusal s d) :=
  firstOf_ite unserved_iff <| firstOf_ite noPlaceFor_iff firstOf_nil

section Send

variable (d : Nat) (s : State)

theorem sendEffect_onlyDrop : OnlyDrop d s (sendEffect d s) := by
  have hrequest := request_onlyDrop .host false d s
  unfold sendEffect
  dsimp only
  split
  · exact onlyDrop_trans hrequest (onlyDrop_of_setDrop d _ _)
  · exact hrequest

/-- The attempts are 0 whether the drop becomes QUEUED or, in an outage, PARKED (R76). -/
theorem sendEffect_drop (hplace : ¬NoPlaceFor (s.drop d) s) : ((sendEffect d s).drop d, (sendEffect d s).aen.queue) =
    hostRequested d (if (s.drop d).link = some .settled ∨ (s.drop d).link = some .unconfirmed then
      { s.drop d with attempts := 0 } else s.drop d) s.aen.queue := by
  have hrequest := request_host rfl hplace
  by_cases hfree : (s.drop d).link = some .settled ∨ (s.drop d).link = some .unconfirmed
  · have hsend : sendEffect d s = (request .host false d s).setDrop d
        { (request .host false d s).drop d with attempts := 0 } := if_pos (free_iff.mpr hfree)
    rw [if_pos hfree, hostRequested_attempts _ hfree, ← hrequest, hsend]
    simp
  · have hsend : sendEffect d s = request .host false d s := if_neg (mt free_iff.mp hfree)
    rw [if_neg hfree, hsend, hrequest]

end Send

/-- Settles O31: each verb's checks by its `_firstOf` lemma, then its effect by the table of the HOST request. -/
theorem dropTiersSuspendSend : Obligations.DropTiersSuspendSend := by
  unfold Obligations.DropTiersSuspendSend
  refine ⟨fun l tag args s h => ?_, fun l tag args s h => ?_, fun l tag args s h => ?_⟩
  · refine parsed_of_act rfl h (fun hs => by simp [dropTiersVerb, hs]) dropTiersVerb_of_unread fun (d, tiers) hs ha =>
      checked_of_verb rfl h (dropTiersVerb_of_args hs ha) (tiersRefusal_firstOf (popLine l s) d) fun hacc hpassed => ?_
    have hplace : ¬((s.drop d).service = .active ∧ NoPlaceFor (s.drop d) s) := hpassed (_, .full) (by simp)
    have honly := tiersEffect_only d tiers (popLine l s)
    have hwrote := tiersEffect_wrote d tiers (popLine l s)
    have hother := tiersEffect_onlyDrop d tiers (popLine l s)
    have hdrop := tiersEffect_drop d tiers (popLine l s) hplace
    generalize tiersEffect d tiers (popLine l s) = t at *
    exact accepts_of_serviceReply rfl h hacc honly (by simp) (congrArg (fun x => serviceWordsOf x.1) hdrop) fun o =>
      ⟨wrote_reply hwrote o, hother, hdrop⟩
  · refine parsed_of_oneDropVerb rfl h fun d hact =>
      checked_of_verb rfl h hact (suspendRefusal_firstOf (popLine l s) d) fun hacc hpassed => ?_
    have hopen : ¬4096 - s.bjn.held.length ≤ 256 := hpassed (_, .journal) (by simp)
    have hplace : ¬NoPlaceFor (s.drop d) s := hpassed (NoPlaceFor (s.drop d) s, .full) (by simp)
    have honly := suspendEffect_only d (popLine l s)
    have hwrote := suspendEffect_wrote d (s := popLine l s) hopen
    have hother := suspendEffect_onlyDrop d (s := popLine l s) hopen
    have hdrop := suspendEffect_drop d (s := popLine l s) hopen hplace
    generalize suspendEffect d (popLine l s) = t at *
    exact accepts_of_serviceReply rfl h hacc honly (by simp) (congrArg (fun x => serviceWordsOf x.1) hdrop) fun o =>
      ⟨wrote_reply hwrote o, hother, hdrop⟩
  · refine parsed_of_oneDropVerb rfl h fun d hact =>
      checked_of_verb rfl h hact (sendRefusal_firstOf (popLine l s) d) fun hacc hpassed => ?_
    have hplace : ¬NoPlaceFor (s.drop d) s := hpassed (NoPlaceFor (s.drop d) s, .full) (by simp)
    have honly := (sendEffect_only d (popLine l s)).mono (qs := [.dtb, .queue]) (by simp)
    have hother := sendEffect_onlyDrop d (popLine l s)
    have hdrop := sendEffect_drop d (popLine l s) hplace
    generalize sendEffect d (popLine l s) = t at *
    exact accepts_of_serviceReply rfl h hacc honly (by simp) (congrArg (fun x => serviceWordsOf x.1) hdrop) fun o =>
      ⟨hother, hdrop⟩

end Sys2Proof.Proofs

/-! PROOFS. TIME.STATUS and STATUS (O20). First what the fields they share read once the line has left its inbox, then
the two replies. -/

namespace Sys2Proof.Proofs

open Sys2Proof Sys2Proof.Machine Sys2Proof.Laws

/-! ## The fields after the line has left its inbox -/

@[simp] theorem fTimeState_popLine (l : Lane) (s : State) : fTimeState (popLine l s) = fTimeState s := rfl
@[simp] theorem fClock_popLine (l : Lane) (s : State) : fClock (popLine l s) = fClock s := rfl

theorem fClock_of_reference {s : State} (h : s.tmb.clock = .reference) : fClock s = fWord "REF" := by
  rw [fClock, h]

theorem fClock_of_internal {s : State} (h : s.tmb.clock = .internal) : fClock s = fWord "INT" := by
  rw [fClock, h]

@[simp] theorem pendingKinds_popLine (l : Lane) (s : State) : (popLine l s).pendingKinds = s.pendingKinds := by
  simp only [State.pendingKinds, attn_popLine]

/-- The inbox of the lane that dispatches is one line shorter (R166). -/
theorem length_inbox_popLine (l k : Lane) (s : State) :
    ((popLine l s).ofp.inbox k).length = (s.ofp.inbox k).length - if l = k then 1 else 0 := by
  by_cases hk : l = k
  · subst hk
    simp only [popLine_inbox, if_true, List.length_tail]
  · simp only [popLine_inbox, if_neg hk, if_neg (Ne.symm hk), Nat.sub_zero]

/-! ## The replies -/

/-- TIME.STATUS reads the Time Base alone, which the line's leaving does not touch (R161). -/
theorem timeStatusVerb_popLine (l : Lane) (s : State) : timeStatusVerb [] (popLine l s)
    = .ok [fTime s.tmb.station, fTimeState s, fFlag s.tmb.uncertain, fTime s.tmb.run, fNum s.tmb.phase, fClock s,
        fNum s.tmb.goodRun, if s.tmb.startup then fWord "W" else fDash] := rfl

/-- Of what STATUS reads, the line's leaving touches the length of its own inbox alone (R173). -/
theorem statusVerb_popLine (l : Lane) (s : State) : statusVerb [] (popLine l s)
    = .ok [fWord s.sst.runState.word, fTimeState s, fFlag s.tmb.uncertain, fClock s, fNum s.pendingKinds.length,
        fNum (s.ofp.inboxP.length - if l = .p then 1 else 0), fNum (s.ofp.inboxM.length - if l = .m then 1 else 0),
        fNum (s.ofp.inboxQ.length - if l = .q then 1 else 0), fNum (s.ofp.outQ.length + 1)] := by
  have hp : (popLine l s).ofp.inboxP.length = s.ofp.inboxP.length - _ := length_inbox_popLine l .p s
  have hm : (popLine l s).ofp.inboxM.length = s.ofp.inboxM.length - _ := length_inbox_popLine l .m s
  have hq : (popLine l s).ofp.inboxQ.length = s.ofp.inboxQ.length - _ := length_inbox_popLine l .q s
  simp only [statusVerb, hp, hm, hq, popLine_sst, popLine_tmb, popLine_outQ, fTimeState_popLine, fClock_popLine,
    pendingKinds_popLine]

/-- Settles O20: each verb answers what it reads of the state without its line, and the clock's word is given case by
case. -/
theorem timeAndStatusReports : Obligations.TimeAndStatusReports := by
  refine ⟨fun l tag s h => answers_of_read rfl h ((timeStatusVerb_popLine l s).trans ?_),
    fun l tag s h => answers_of_read rfl h ((statusVerb_popLine l s).trans ?_)⟩
  · cases hclock : s.tmb.clock with
    | reference => simp only [fClock_of_reference hclock, fTimeState, fDash, fWord]
    | internal => simp only [fClock_of_internal hclock, fTimeState, fDash, fWord]
  · cases hclock : s.tmb.clock with
    | reference => simp only [fClock_of_reference hclock, fTimeState, State.pendingKinds]
    | internal => simp only [fClock_of_internal hclock, fTimeState, State.pendingKinds]

end Sys2Proof.Proofs

/-! PROOFS. The Office Port: the attention verbs (O21), the identity verbs (O22) and the lines received (O47). First how
a change of flags reads kind by kind, then the two families of verbs, then what is discarded of the lines and how the
rest are judged. -/

namespace Sys2Proof.Proofs

open Sys2Proof Sys2Proof.Machine Sys2Proof.Laws

/-! ## A change of flags, kind by kind (R169 to R171) -/

theorem mem_kindAll (k : Kind) : k ∈ Kind.all := by cases k <;> decide

/-- A kind listed twice is changed once: each verb's change of flags is idempotent. -/
theorem attn_foldl_setAttn {g : Kind → Attn → Attn} (hg : ∀ k a, g k (g k a) = g k a) (ks : List Kind) (s : State)
    (k : Kind) : (ks.foldl (fun s j => s.setAttn j (g j (s.attn j))) s).attn k
      = if k ∈ ks then g k (s.attn k) else s.attn k := by
  induction ks generalizing s with
  | nil => simp
  | cons j ks ih =>
    rw [List.foldl_cons, ih, attn_setAttn]
    by_cases hk : k = j
    · subst hk
      simp [hg]
    · simp [hk]

theorem attn_mapAttn {f : Attn → Attn} (hf : ∀ a, f (f a) = f a) (ks : List Kind) (s : State) (k : Kind) :
    (s.mapAttn f ks).attn k = if k ∈ ks then f (s.attn k) else s.attn k :=
  attn_foldl_setAttn (g := fun _ => f) (fun _ => hf) ks s k

theorem cleared_cleared (a : Attn) : a.cleared.cleared = a.cleared := rfl

theorem masked_masked (on : Bool) (a : Attn) : (a.masked on).masked on = a.masked on := by
  cases on <;> simp [Attn.masked]

theorem attn_maskKinds (ks : List Kind) (s : State) (k : Kind) :
    (maskKinds ks s).attn k = (s.attn k).masked (ks.contains k) :=
  (attn_foldl_setAttn (g := fun j => Attn.masked (ks.contains j)) (fun _ => masked_masked _) Kind.all s k).trans
    (if_pos (mem_kindAll k))

theorem maskKinds_only (ks : List Kind) (s : State) : OnlyChanges [.attn] s (maskKinds ks s) :=
  OnlyChanges.foldl _ (fun s k => setAttn_only k _ s) Kind.all s

/-! ## The attention verbs (R170, R171) -/

theorem one_eq_none {α : Type} {f : Text → Option α} {args : List Text} :
    one f args = none ↔ ∀ a, args = [a] → f a = none := by
  rcases args with _ | ⟨a, _ | ⟨b, rest⟩⟩ <;> simp [one]

/-- A verb of one argument that lists kinds: ARGS when it does not read, and else each kind's flags as `flags` gives
them. -/
theorem kindsVerb_judged {c : Instr} {v : Verb} {l : Lane} {tag : Byte} {args : List Text} {s : State}
    {act : List Text → State → State × Reply} {read : Text → Option (List Kind)} {effect : List Kind → State → State}
    {flags : List Kind → Kind → Attn → Attn} (hc : exec c s = dispatch v l act s) (h : Takes v l tag args s)
    (hact : ∀ u, act args u = (one read args).elim (refuse .args u) fun ks => accept (effect ks u))
    (honly : ∀ ks u, OnlyChanges [.attn] u (effect ks u))
    (hattn : ∀ ks u k, (effect ks u).attn k = flags ks k (u.attn k)) :
    ((∀ a, args = [a] → read a = none) → Refuses c l tag .args s)
      ∧ ∀ a ks, args = [a] → read a = some ks →
          Accepts c l tag (.ok []) s [.attn] fun t => ∀ k, t.attn k = flags ks k (s.attn k) := by
  constructor
  · intro hnone
    refine refuses_of_effect hc h ?_
    rw [hact, one_eq_none.mpr hnone, Option.elim_none]
  · intro a ks ha hks
    refine accepts_of_effect (u := effect ks (popLine l s)) hc h ?_ (honly ks _) (by simp) fun k => ?_
    · rw [hact, one_eq_some.mpr ⟨a, ha, hks⟩, Option.elim_some, accept]
    · exact (hattn ks (popLine l s) k).trans (by rw [attn_popLine])

theorem attnClearVerb_eq (args : List Text) (s : State) : attnClearVerb args s
    = (one argKindsOrAll args).elim (refuse .args s) fun ks => accept (s.mapAttn Attn.cleared ks) := by
  rcases args with _ | ⟨a, _ | ⟨b, rest⟩⟩
  · rfl
  · simp only [attnClearVerb, one]
    cases argKindsOrAll a <;> rfl
  · rfl

theorem attnMaskVerb_eq (args : List Text) (s : State) : attnMaskVerb args s
    = (one argMask args).elim (refuse .args s) fun ks => accept (maskKinds ks s) := by
  rcases args with _ | ⟨a, _ | ⟨b, rest⟩⟩
  · rfl
  · simp only [attnMaskVerb, one]
    cases argMask a <;> rfl
  · rfl

theorem attnForceVerb_eq (args : List Text) (s : State) : attnForceVerb args s
    = (one argKindsOrAll args).elim (refuse .args s) fun ks => accept (s.mapAttn Attn.raised ks) := by
  rcases args with _ | ⟨a, _ | ⟨b, rest⟩⟩
  · rfl
  · simp only [attnForceVerb, one]
    cases argKindsOrAll a <;> rfl
  · rfl

theorem argMask_eq (a : Text) : argMask a = if a = ascii "-" then some [] else argKindsOrAll a := by
  have hdash : ascii "-" = [chDash] := by decide
  rw [argMask, hdash]

theorem argMask_eq_none {a : Text} : argMask a = none ↔ a ≠ ascii "-" ∧ argKindsOrAll a = none := by
  rw [argMask_eq]
  split <;> simp [*]

/-- A raise changes a kind that is not pending; one that is stays as it is (R169). -/
theorem raised_eq (a : Attn) :
    a.raised = if a.pending = false then { a with pending := true, due := a.due || a.enabled } else a := by
  unfold Attn.raised
  cases a.pending <;> rfl

/-- Settles O21: each of the three verbs that change flags by `kindsVerb_judged`, its flags by `attn_mapAttn` or
`attn_maskKinds`; ATTN.READ by what the line's leaving keeps. -/
theorem attentionVerbs : Obligations.AttentionVerbs := by
  refine ⟨⟨fun l tag s h => answers_of_read rfl h ?_, fun l tag args s h => ?_⟩, fun l tag args s h => ?_,
    fun l tag args s h => ?_⟩
  · simp only [attnReadVerb, State.pendingKinds, attn_popLine]
  · exact kindsVerb_judged (effect := fun ks u => u.mapAttn Attn.cleared ks)
      (flags := fun ks k a => if k ∈ ks then a.cleared else a) rfl h (attnClearVerb_eq args)
      (fun ks u => mapAttn_only _ ks u) (fun ks u k => attn_mapAttn cleared_cleared ks u k)
  · obtain ⟨hargs, hacc⟩ := kindsVerb_judged (c := .attnMask l) (effect := maskKinds)
      (flags := fun ks k a => a.masked (ks.contains k)) rfl h (attnMaskVerb_eq args) maskKinds_only attn_maskKinds
    refine ⟨fun hn => hargs fun a ha => argMask_eq_none.mpr (hn a ha), fun a ks ha hks => ?_⟩
    simpa only [Attn.masked, List.contains_iff_mem] using hacc a ks ha ((argMask_eq a).trans hks)
  · have hforce := kindsVerb_judged (c := .attnForce l) (effect := fun ks u => u.mapAttn Attn.raised ks)
      (flags := fun ks k a => if k ∈ ks then a.raised else a) rfl h (attnForceVerb_eq args)
      (fun ks u => mapAttn_only _ ks u) (fun ks u k => attn_mapAttn raised_raised ks u k)
    simpa only [raised_eq, ite_and] using hforce

/-! ## The identity verbs (R172) -/

theorem compatWaits_of_takes {l : Lane} {tag : Byte} {args : List Text} {s : State} (h : Takes .identify l tag args s) :
    s.compatWaits l = true ↔ args = [ascii "COMPAT"] := by
  obtain ⟨hline, -⟩ := h
  simp [State.compatWaits, hline]

theorem compat_popLine (l : Lane) (s : State) : (popLine l s).ofp.compat = s.ofp.compat := by cases l <;> rfl

/-- IDENTIFY without COMPAT is a reading. -/
theorem exec_identify_reads {l : Lane} {tag : Byte} {args : List Text} {s : State} (h : Takes .identify l tag args s)
    (hc : args ≠ [ascii "COMPAT"]) : exec (.identify l) s = answer .identify l identifyVerb s :=
  if_neg fun hw => hc ((compatWaits_of_takes h).mp hw)

theorem identity_eq (b : Bool) :
    identity b = .ok [fWord "WILTZEN", fWord "HX-240", if b then fWord "B" else fWord "C"] := by cases b <;> rfl

theorem identifyVerb_of_ne_nil {args : List Text} (h : args ≠ []) (s : State) : identifyVerb args s = .err .args := by
  cases args with
  | nil => exact absurd rfl h
  | cons a rest => rfl

theorem exec_identifyCompat {l : Lane} {tag : Byte} {s : State} (h : Takes .identify l tag [ascii "COMPAT"] s) :
    exec (.identifyCompat l) s
      = .next (emit (.reply l tag (identity true)) (identifyCompatVerb [] (popLine l s)).1).report :=
  (if_pos ((compatWaits_of_takes h).mpr rfl)).trans (dispatch_takes h identifyCompatVerb)

theorem identifyCompat_only (s : State) : OnlyChanges [.office] s (identifyCompatVerb [] s).1 := by
  intro p hp
  cases p with
  | office => simp at hp
  | _ => rfl

theorem compat_of_office {s t : State} (h : Agree .office s t) : t.ofp.compat = s.ofp.compat := by
  have hoffice : { t.ofp with attn := [] } = { s.ofp with attn := [] } := h
  injection hoffice

theorem settleAttention_only (s : State) : OnlyChanges [.attn, .draws] s (settleAttention s) := by
  have hcleared : OnlyChanges [.attn] s (if Config.attentionClearedLast s.draws then clearAttention s else s) :=
    OnlyChanges.ite (mapAttn_only _ _ s) (OnlyChanges.refl _ s)
  refine (hcleared.mono (by simp)).trans fun p hp => ?_
  cases p with
  | draws => simp at hp
  | _ => rfl

/-- The Office Port's reset clears the flag, and what follows it touches the attention set alone (R172, R182). -/
theorem compat_warmReset (s : State) : (warmReset s).ofp.compat = false :=
  compat_of_office (settleAttention_only _ .office (by simp))

/-- Settles O22: IDENTIFY as a reading, IDENTIFY COMPAT as a dispatch that sets the flag, and RESET by
`compat_warmReset`. -/
theorem identityVerbs : Obligations.IdentityVerbs := by
  refine ⟨fun l tag args s h => ⟨?_, fun hnil hcompat => ?_, ?_⟩, rfl, fun l tag s h =>
    ⟨_, dispatch_takes h resetVerb, compat_warmReset (popLine l s)⟩⟩
  · rintro rfl
    refine answers_of_read (exec_identify_reads h (by simp)) h ?_
    rw [identifyVerb, compat_popLine, identity_eq]
  · exact answers_of_read (exec_identify_reads h hcompat) h (identifyVerb_of_ne_nil hnil _)
  · rintro rfl
    refine ⟨_, exec_identifyCompat h, rfl, ?_⟩
    have hset := (popLine_only l s).trans (identifyCompat_only (popLine l s))
    exact ((hset.trans (emit_only _ _)).mono (by simp)).trans ((report_only _).mono (by simp))

/-! ## Lines received: what is discarded (R162) -/

/-- A command that is carried out without a change of readiness. -/
theorem happens_of_only {c : Instr} {s t : State} {ps : List Part} {q : State → Prop} (he : exec c s = .next t)
    (ho : OnlyChanges ps s t) (hq : q t) : Happens c s ps q :=
  ⟨t, he, ho.mono (List.subset_cons_self _ _), hq⟩

theorem happens_raise {c : Instr} {k : Kind} {s : State} (he : exec c s = .next (raise k s)) :
    Happens c s [.attn] (Raised [k] s) :=
  happens_of_only he (raise_only k s) (raised_raise k s s rfl)

theorem receivedLine_eq_none {chars : List Byte} {framing : Bool} (h : framing = true ∨ chars.getLast? ≠ some 0x0D#8
    ∨ 200 < chars.length + 1 ∨ readHead chars.dropLast = none) : receivedLine chars framing = none := by
  rcases h with hframing | hcr | hlen | hhead
  · simp [receivedLine, hframing]
  · simp [receivedLine, chCr, hcr]
  · simp [receivedLine, hlen]
  · simp [receivedLine, hhead]

theorem receivedLine_eq_some {chars rest : List Byte} {l : Lane} {tag : Byte} (hcr : chars.getLast? = some 0x0D#8)
    (hlen : chars.length + 1 ≤ 200) (hhead : readHead chars.dropLast = some (l, tag, rest)) :
    receivedLine chars false = some (l, tag, chars.dropLast) := by
  simp [receivedLine, hcr, chCr, hhead, Nat.not_lt.mpr hlen]

theorem exec_lineReceived {chars : List Byte} {framing : Bool} (hlf : chars.contains lineFeed = false) (s : State) :
    exec (.lineReceived chars framing) s
      = .next ((receivedLine chars framing).elim (raise .link s) fun h => judgeLine h.1 h.2.1 h.2.2 s) := by
  change execLineReceived chars framing s = _
  rw [execLineReceived, hlf]
  cases receivedLine chars framing <;> rfl

/-! ## Lines received: the judgment (R163, R165) -/

/-- The characters before a space, `*` and two hex digits, when those digits say their exclusive-or (R163). -/
theorem checkedBody_eq_some {line pre : Text} : checkedBody line = some pre ↔
    ∃ c d, line = pre ++ [0x20#8, 0x2A#8, c, d]
      ∧ hexPair c d = some ((pre ++ [0x20#8]).foldl (fun a b => a ^^^ b) 0#8) := by
  constructor
  · intro h
    unfold checkedBody at h
    split at h
    · next d c star sp revPre hline =>
      split at h
      · next hcheck =>
        obtain ⟨rfl, rfl, hpair⟩ := hcheck
        obtain rfl : revPre.reverse = pre := Option.some.inj h
        exact ⟨c, d, by simpa [chStar, chSpace] using congrArg List.reverse hline, hpair⟩
      · cases h
    · cases h
  · rintro ⟨c, d, rfl, hpair⟩
    simp [checkedBody, chStar, chSpace, checkOf, hpair]

/-- A reply at arrival takes a free place, and without one is dropped with LINK attention (R165). -/
theorem happens_replyAtArrival {c : Instr} {l : Lane} {tag : Byte} {why : Reason} {s : State}
    (he : exec c s = .next (replyAtArrival l tag why s)) :
    (s.ofp.outQ.length + (if s.ofp.clearTag.isSome then 1 else 0) < 16 → Happens c s [.office] fun t =>
        t.ofp = { s.ofp with outQ := s.ofp.outQ ++ [.reply l tag (.err why)] })
      ∧ (16 ≤ s.ofp.outQ.length + (if s.ofp.clearTag.isSome then 1 else 0) →
          Happens c s [.attn] (Raised [.link] s)) := by
  constructor
  · intro hfree
    have hplace : 1 ≤ s.freePlaces := Nat.sub_pos_of_lt hfree
    exact happens_of_only (he.trans (congrArg _ (if_pos hplace))) (emit_only _ s) rfl
  · intro hfull
    have hplace : ¬1 ≤ s.freePlaces := by simp [State.freePlaces, Nat.sub_eq_zero_of_le hfull]
    exact happens_raise (he.trans (congrArg _ (if_neg hplace)))

theorem judgeLine_unchecked {l : Lane} {tag : Byte} {line : Text} {s : State} (h : checkedBody line = none) :
    judgeLine l tag line s = replyAtArrival l tag .check s := by rw [judgeLine, h]

theorem judgeLine_loading {l : Lane} {tag : Byte} {line pre : Text} {s : State} (h : checkedBody line = some pre)
    (hload : s.sst.runState = .loading) : judgeLine l tag line s = replyAtArrival l tag .loading s := by
  simp only [judgeLine, h, if_pos hload]

theorem judgeLine_full {l : Lane} {tag : Byte} {line pre : Text} {s : State} (h : checkedBody line = some pre)
    (hload : s.sst.runState ≠ .loading) (hfull : 4 ≤ (s.ofp.inbox l).length) :
    judgeLine l tag line s = replyAtArrival l tag .full s := by
  simp only [judgeLine, h, if_neg hload, if_pos hfull]

theorem judgeLine_queued {l : Lane} {tag : Byte} {line pre : Text} {s : State} (h : checkedBody line = some pre)
    (hload : s.sst.runState ≠ .loading) (hroom : (s.ofp.inbox l).length < 4) : judgeLine l tag line s
      = { s with ofp := s.ofp.setInbox l (s.ofp.inbox l ++ [⟨tag, pre.drop 3⟩]) } := by
  simp only [judgeLine, h, if_neg hload, if_neg (Nat.not_le.mpr hroom)]

theorem setInbox_only (l : Lane) (x : List Line) (s : State) :
    OnlyChanges [.office] s { s with ofp := s.ofp.setInbox l x } := by
  intro p hp
  cases p with
  | office => simp at hp
  | attn => cases l <;> rfl
  | _ => rfl

/-- Of the Office Port, an inbox alone is written. -/
theorem setInbox_keeps (l : Lane) (x : List Line) (o : Ofp) :
    (o.setInbox l x).outQ = o.outQ ∧ (o.setInbox l x).held = o.held ∧ (o.setInbox l x).saveTag = o.saveTag
      ∧ (o.setInbox l x).clearTag = o.clearTag ∧ (o.setInbox l x).compat = o.compat := by
  cases l <;> exact ⟨rfl, rfl, rfl, rfl, rfl⟩

/-- Settles O47: the discards by `receivedLine_eq_none`, and each judgment by its equation of `judgeLine`. -/
theorem linesReceived : Obligations.LinesReceived := by
  refine ⟨fun s => happens_raise rfl, fun chars framing s hlf hbad =>
    happens_raise ((exec_lineReceived hlf s).trans (by rw [receivedLine_eq_none hbad, Option.elim_none])), ?_⟩
  intro chars rest l tag s hlf hcr hlen hhead judged answers
  have hexec : exec (.lineReceived chars false) s = .next (judgeLine l tag chars.dropLast s) :=
    (exec_lineReceived hlf s).trans (by rw [receivedLine_eq_some hcr hlen hhead, Option.elim_some])
  have hanswers : ∀ why, judgeLine l tag chars.dropLast s = replyAtArrival l tag why s → answers why :=
    fun why hw => happens_replyAtArrival (hexec.trans (congrArg _ hw))
  constructor
  · intro hnone
    exact hanswers .check (judgeLine_unchecked (Option.eq_none_iff_forall_ne_some.mpr fun pre hp =>
      hnone pre (checkedBody_eq_some.mp hp)))
  · intro pre hjudged
    have hbody : checkedBody chars.dropLast = some pre := checkedBody_eq_some.mpr hjudged
    refine ⟨fun hload => hanswers .loading (judgeLine_loading hbody hload),
      fun hload hfull => hanswers .full (judgeLine_full hbody hload hfull), fun hload hroom => ?_⟩
    refine happens_of_only (hexec.trans (congrArg _ (judgeLine_queued hbody hload hroom))) (setInbox_only l _ s)
      ⟨fun k => (inbox_setInbox k l _ s.ofp).trans ?_, setInbox_keeps l _ s.ofp⟩
    by_cases hk : k = l
    · simp only [hk, if_true]
    · simp only [hk, if_false]

end Sys2Proof.Proofs
/-! PROOFS. What every command keeps (O3, O7 to O12): the preorder `Keeps` of the effects, one lemma for each operation of
the machine, then what that gives for a whole command, and the invariants. -/

namespace Sys2Proof.Proofs

open Sys2Proof Sys2Proof.Machine Sys2Proof.Laws

/-! ## What an effect keeps -/

/-- The effect of a verb or an event, before its reply and the owners' report, keeps every invariant but that of the
marks, the output queue and its reserved place, and the commands that wait; an inbox gets no longer. -/
structure Keeps (s t : State) : Prop where
  tables : TablesCanonical s → TablesCanonical t
  attention : AttentionSound s → AttentionSound t
  journal : JournalSound s → JournalSound t
  windows : WindowsSound s → WindowsSound t
  outQ : t.ofp.outQ = s.ofp.outQ
  clearTag : t.ofp.clearTag = s.ofp.clearTag
  inbox : ∀ l, (t.ofp.inbox l).length ≤ (s.ofp.inbox l).length
  pending : t.pending = s.pending

namespace Keeps

theorem refl (s : State) : Keeps s s := ⟨id, id, id, id, rfl, rfl, fun _ => le_rfl, rfl⟩

theorem trans {s t u : State} (h : Keeps s t) (g : Keeps t u) : Keeps s u where
  tables := g.tables ∘ h.tables
  attention := g.attention ∘ h.attention
  journal := g.journal ∘ h.journal
  windows := g.windows ∘ h.windows
  outQ := g.outQ.trans h.outQ
  clearTag := g.clearTag.trans h.clearTag
  inbox l := (g.inbox l).trans (h.inbox l)
  pending := g.pending.trans h.pending

theorem ite {c : Prop} [Decidable c] {s t u : State} (h : Keeps s t) (g : Keeps s u) :
    Keeps s (if c then t else u) := by
  split
  · exact h
  · exact g

theorem foldl {α : Type} {f : State → α → State} (hf : ∀ s a, Keeps s (f s a)) (l : List α) (s : State) :
    Keeps s (l.foldl f s) := by
  induction l generalizing s with
  | nil => exact refl s
  | cons a l ih => exact (hf s a).trans (ih (f s a))

/-- What touches neither the Office Port, the windows, the journal nor the queue of commands has the tables to keep. -/
theorem of_tables {s t : State} (ht : TablesCanonical s → TablesCanonical t) (ho : t.ofp = s.ofp)
    (hw : t.csc.windows = s.csc.windows) (hb : t.bjn = s.bjn) (hp : t.pending = s.pending) : Keeps s t where
  tables := ht
  attention h k := by
    have hk : t.attn k = s.attn k := attn_congr (congrArg Ofp.attn ho) k
    rw [hk]
    exact h k
  journal h := by rw [JournalSound, hb]; exact h
  windows h := by rw [WindowsSound, hw]; exact h
  outQ := by rw [ho]
  clearTag := by rw [ho]
  inbox l := by rw [ho]
  pending := hp

end Keeps

theorem tablesCanonical_congr {s t : State} (hsmn : t.smn = s.smn) (hlur : t.lur = s.lur) (hcrs : t.crs = s.crs)
    (hdtb : t.dtb = s.dtb) (hppl : t.ppl = s.ppl) (hofp : t.ofp.attn = s.ofp.attn) (h : TablesCanonical s) :
    TablesCanonical t := by
  rw [TablesCanonical, hsmn, hlur, hcrs, hdtb, hppl, hofp]
  exact h

/-- An operation of which a frame lemma says that it touches none of the blocks an invariant reads keeps them all. -/
theorem keeps_of_only {ps : List Part} {s t : State} (h : OnlyChanges ps s t)
    (hps : ∀ p ∈ [.attn, .office, .smn, .lur, .crs, .csc, .dtb, .ppl, .bjn, .pending], p ∉ ps) : Keeps s t := by
  have hattn : t.ofp.attn = s.ofp.attn := h .attn (hps _ (by simp))
  have hoffice : { t.ofp with attn := [] } = { s.ofp with attn := [] } := h .office (hps _ (by simp))
  have hofp : t.ofp = s.ofp := by
    calc t.ofp = { ({ t.ofp with attn := [] } : Ofp) with attn := t.ofp.attn } := rfl
      _ = s.ofp := by rw [hoffice, hattn]
  have hcsc : { t.csc with marks := s.csc.marks } = s.csc := h .csc (hps _ (by simp))
  exact .of_tables (tablesCanonical_congr (h .smn (hps _ (by simp))) (h .lur (hps _ (by simp)))
    (h .crs (hps _ (by simp))) (h .dtb (hps _ (by simp))) (h .ppl (hps _ (by simp))) hattn) hofp
    (congrArg Csc.windows hcsc :) (h .bjn (hps _ (by simp))) (h .pending (hps _ (by simp)))

/-! ## The flags of the attention set -/

/-- The flags of one kind are consistent (R169 to R171). -/
def Attn.Sound (a : Attn) : Prop :=
  (a.due = true → a.pending = true ∧ a.enabled = true ∧ a.announced = false) ∧ (a.announced = true → a.pending = true)

theorem attentionSound_iff {s : State} : AttentionSound s ↔ ∀ k, Attn.Sound (s.attn k) := Iff.rfl

theorem Attn.Sound.raised {a : Attn} (h : Attn.Sound a) : Attn.Sound a.raised := by
  obtain ⟨p, e, n, d⟩ := a
  cases p <;> cases e <;> cases n <;> cases d <;> simp_all [Attn.Sound, Attn.raised]

theorem Attn.Sound.cleared {a : Attn} (_ : Attn.Sound a) : Attn.Sound a.cleared := by simp [Attn.Sound, Attn.cleared]

/-- A kind is named by a notice only while due. -/
theorem Attn.Sound.noticed {a : Attn} (h : Attn.Sound a) (hd : a.due = true) : Attn.Sound a.noticed := by
  simp [Attn.Sound, Attn.noticed, (h.1 hd).1]

theorem Attn.Sound.masked {a : Attn} (on : Bool) (h : Attn.Sound a) : Attn.Sound (a.masked on) := by
  obtain ⟨p, e, n, d⟩ := a
  cases on <;> cases p <;> cases e <;> cases n <;> cases d <;> simp_all [Attn.Sound, Attn.masked]

/-- A write of a kind's flags that keeps them consistent. -/
theorem keeps_setAttn {k : Kind} {a : Attn} {s : State} (h : Attn.Sound (s.attn k) → Attn.Sound a) :
    Keeps s (s.setAttn k a) where
  tables := fun ⟨h1, h2, h3, h4, h5, h6, h7, h8, h9, h10⟩ => ⟨h1, h2, h3, h4, h5, h6, h7, h8, h9, wf_set _ _ h10⟩
  attention hs j := by
    by_cases hj : j = k
    · subst hj
      rw [attn_setAttn, if_pos rfl]
      exact h (hs j)
    · simpa [hj] using hs j
  journal := id
  windows := id
  outQ := rfl
  clearTag := rfl
  inbox l := by cases l <;> exact le_rfl
  pending := rfl

theorem keeps_raise (k : Kind) (s : State) : Keeps s (raise k s) := keeps_setAttn Attn.Sound.raised

theorem keeps_raiseIf (b : Bool) (k : Kind) (s : State) : Keeps s (raiseIf b k s) := (keeps_raise k s).ite (.refl s)

theorem keeps_mapAttn {f : Attn → Attn} (hf : ∀ a, Attn.Sound a → Attn.Sound (f a)) (ks : List Kind) (s : State) :
    Keeps s (s.mapAttn f ks) := .foldl (fun _ _ => keeps_setAttn (hf _)) ks s

theorem keeps_maskKinds (ks : List Kind) (s : State) : Keeps s (maskKinds ks s) :=
  .foldl (fun _ _ => keeps_setAttn (Attn.Sound.masked _)) _ s

theorem keeps_clearAttention (s : State) : Keeps s (clearAttention s) := keeps_mapAttn (fun _ => Attn.Sound.cleared) _ s

/-! ## The journal's numbers -/

theorem seqFits_append {next : Word} {rs : List JRec} {r : JRec} (h : seqFits next rs = true) (hr : r.seq = next) :
    seqFits (next + 1) (rs ++ [r]) = true := by
  induction rs with
  | nil => simp [seqFits, hr]
  | cons x rs ih =>
    simp only [seqFits, Bool.and_eq_true, beq_iff_eq] at h
    obtain ⟨hx, hrs⟩ := h
    have hlen : x.seq + BitVec.ofNat 32 ((rs ++ [r]).length + 1) = next + 1 := by
      rw [List.length_append, ← hx, BitVec.add_assoc]
      exact congrArg (x.seq + ·) (BitVec.ofNat_add ..)
    simp only [List.cons_append, seqFits, hlen, ih hrs, beq_self_eq_true, Bool.and_true]

theorem seqFits_drop {next : Word} {rs : List JRec} (n : Nat) (h : seqFits next rs = true) :
    seqFits next (rs.drop n) = true := by
  induction rs generalizing n with
  | nil => simpa using h
  | cons x rs ih =>
    cases n with
    | zero => simpa using h
    | succ n =>
      simp only [seqFits, Bool.and_eq_true] at h
      simpa using ih n h.2

/-- An append to a journal that has a free record (R139, R141). -/
theorem keeps_appendRecord {b : JBody} {s : State} (hfree : 1 ≤ s.free) : Keeps s (appendRecord b s) where
  tables := id
  attention := id
  journal := fun ⟨_, hseq⟩ => ⟨by simp only [State.free] at hfree; simp [appendRecord]; omega, seqFits_append hseq rfl⟩
  windows := id
  outQ := rfl
  clearTag := rfl
  inbox _ := le_rfl
  pending := rfl

theorem keeps_writeRecord {b : JBody} {s : State} (hfree : 1 ≤ s.free) : Keeps s (writeRecord b s) :=
  ((keeps_appendRecord hfree).trans (keeps_raiseIf _ _ _)).trans (keeps_raiseIf _ _ _)

/-- Some of the oldest records leave (R146); the other fields of the journal are free. -/
theorem keeps_dropRecords (n : Nat) (s : State) {b : Bjn} (hheld : b.held = s.bjn.held.drop n)
    (hnext : b.nextSeq = s.bjn.nextSeq) : Keeps s { s with bjn := b } where
  tables := id
  attention := id
  journal := fun ⟨hlen, hseq⟩ => by
    refine ⟨?_, ?_⟩
    · simp only [hheld, List.length_drop]
      omega
    · simpa only [hheld, hnext] using seqFits_drop n hseq
  windows := id
  outQ := rfl
  clearTag := rfl
  inbox _ := le_rfl
  pending := rfl

/-- The drain's fields and the period are read by no invariant. -/
theorem keeps_bjn {s : State} {b : Bjn} (hheld : b.held = s.bjn.held) (hnext : b.nextSeq = s.bjn.nextSeq) :
    Keeps s { s with bjn := b } := keeps_dropRecords 0 s (by simpa using hheld) hnext

/-! ## The tables and the windows -/

theorem keeps_setDrop (d : Nat) (r : Drop) (s : State) : Keeps s (s.setDrop d r) :=
  .of_tables (fun ⟨h1, h2, h3, h4, h5, h6, h7, h8, h9, h10⟩ => ⟨h1, h2, h3, h4, h5, h6, wf_set _ _ h7, h8, h9, h10⟩)
    rfl rfl rfl rfl

theorem keeps_setSlot (k : Nat) (r : Slot) (s : State) : Keeps s (s.setSlot k r) :=
  .of_tables (fun ⟨h1, h2, h3, h4, h5, h6, h7, h8, h9, h10⟩ => ⟨h1, wf_set _ _ h2, h3, h4, h5, h6, h7, h8, h9, h10⟩)
    rfl rfl rfl rfl

theorem keeps_setEvent (k : Nat) (e : Option Event) (s : State) : Keeps s (s.setEvent k e) :=
  .of_tables (fun ⟨h1, h2, h3, h4, h5, h6, h7, h8, h9, h10⟩ => ⟨h1, h2, wf_set _ _ h3, h4, h5, h6, h7, h8, h9, h10⟩)
    rfl rfl rfl rfl

theorem keeps_setSource (k : Nat) (r : Source) (s : State) : Keeps s (s.setSource k r) :=
  .of_tables (fun ⟨h1, h2, h3, h4, h5, h6, h7, h8, h9, h10⟩ => ⟨wf_set _ _ h1, h2, h3, h4, h5, h6, h7, h8, h9, h10⟩)
    rfl rfl rfl rfl

theorem keeps_setUnit (u : Nat) (r : PlantUnit) (s : State) : Keeps s (s.setUnit u r) :=
  .of_tables (fun ⟨h1, h2, h3, h4, h5, h6, h7, h8, h9, h10⟩ => ⟨h1, h2, h3, h4, h5, h6, h7, h8, wf_set _ _ h9, h10⟩)
    rfl rfl rfl rfl

theorem keeps_setGuard (on : Bool) (b : Nat) (s : State) : Keeps s (setGuard on b s) :=
  .of_tables (fun ⟨h1, h2, h3, h4, h5, h6, h7, h8, h9, h10⟩ => ⟨h1, h2, h3, h4, h5, h6, h7, wf_set _ _ h8, h9, h10⟩)
    rfl rfl rfl rfl

theorem keeps_setEnabled (e : Nat) (on : Bool) (s : State) :
    Keeps s { s with crs := { s.crs with enables := Table.set (fun _ => true) s.crs.enables e on } } :=
  .of_tables (fun ⟨h1, h2, h3, h4, h5, h6, h7, h8, h9, h10⟩ => ⟨h1, h2, h3, wf_set _ _ h4, h5, h6, h7, h8, h9, h10⟩)
    rfl rfl rfl rfl

theorem keeps_rebuildMap (p : Nat) (s : State) : Keeps s (rebuildMap p s) :=
  .of_tables (fun ⟨h1, h2, h3, h4, h5, h6, h7, h8, h9, h10⟩ => ⟨h1, h2, h3, h4, wf_set p (mapPage s p) h5, h6, h7, h8, h9, h10⟩)
    rfl rfl rfl rfl

theorem keeps_rebuildEvents (p : Nat) (s : State) : Keeps s (rebuildEvents p s) :=
  .of_tables (fun ⟨h1, h2, h3, h4, h5, h6, h7, h8, h9, h10⟩ => ⟨h1, h2, h3, h4, h5, wf_set p (eventPage s p) h6, h7, h8, h9, h10⟩)
    rfl rfl rfl rfl

/-- Of the Poller, the units alone are a table. -/
theorem keeps_ppl {s : State} {p : Ppl} (h : p.units = s.ppl.units) : Keeps s { s with ppl := p } :=
  .of_tables (fun ⟨h1, h2, h3, h4, h5, h6, h7, h8, h9, h10⟩ => ⟨h1, h2, h3, h4, h5, h6, h7, h8, h.symm ▸ h9, h10⟩)
    rfl rfl rfl rfl

/-- Of the Carousel, the enables and the pages alone are tables. -/
theorem keeps_crs {s : State} {c : Crs} (he : c.enables = s.crs.enables) (hm : c.mapPages = s.crs.mapPages)
    (hv : c.eventPages = s.crs.eventPages) : Keeps s { s with crs := c } :=
  .of_tables (fun ⟨h1, h2, h3, h4, h5, h6, h7, h8, h9, h10⟩ =>
    ⟨h1, h2, h3, he.symm ▸ h4, hm.symm ▸ h5, hv.symm ▸ h6, h7, h8, h9, h10⟩) rfl rfl rfl rfl

theorem keeps_setOverride (o : Override) (s : State) : Keeps s (s.setOverride o) := .of_tables id rfl rfl rfl rfl

/-- Of the Carrier Scheduler, the windows alone are in an invariant. -/
theorem keeps_csc {s : State} {c : Csc} (h : c.windows = s.csc.windows) : Keeps s { s with csc := c } :=
  .of_tables id rfl h rfl rfl

theorem keeps_setWindows {ws : List Window} {s : State} (h : WindowsSound s → WindowsSound (s.setWindows ws)) :
    Keeps s (s.setWindows ws) := ⟨id, id, id, h, rfl, rfl, fun _ => le_rfl, rfl⟩

/-- Windows that close leave the rest as it was. -/
theorem keeps_filterWindows (p : Window → Bool) (s : State) : Keeps s (s.setWindows (s.csc.windows.filter p)) :=
  keeps_setWindows fun ⟨hlen, hnodup⟩ =>
    ⟨(List.length_filter_le _ _).trans hlen, hnodup.sublist (List.filter_sublist.map _)⟩

/-- A window is opened to an address that no open one carries, while fewer than three are open (R43, R45). -/
theorem keeps_openWindow {a : Addr} {k : WindowKind} {owner : Nat} {n : Word} {s : State} (h : mayOpen s a = true) :
    Keeps s (openWindow a k owner n s) :=
  keeps_setWindows fun ⟨_, hnodup⟩ => by
    simp only [mayOpen, windowCarries, Bool.and_eq_true, decide_eq_true_eq, Bool.not_eq_true',
      List.any_eq_false, beq_iff_eq] at h
    obtain ⟨hlen, hnew⟩ := h
    refine ⟨?_, ?_⟩
    · simp [State.setWindows]
      omega
    · simp only [State.setWindows, List.map_append, List.map_cons, List.map_nil, List.nodup_append, hnodup,
        List.nodup_cons, List.not_mem_nil, not_false_iff, List.nodup_nil, and_self, true_and, List.mem_singleton,
        List.mem_map]
      rintro _ ⟨w, hw, rfl⟩ _ rfl
      exact hnew w hw

end Sys2Proof.Proofs

namespace Sys2Proof.Proofs

open Sys2Proof Sys2Proof.Machine Sys2Proof.Laws

/-! ## The shared operations keep the invariants -/

theorem keeps_setQueue (q : List QEntry) (s : State) : Keeps s (s.setQueue q) :=
  keeps_of_only (setQueue_only q s) (by simp)

theorem keeps_setWaves (w : List Wave) (s : State) : Keeps s (s.setWaves w) := keeps_of_only (setWaves_only w s) (by simp)

theorem keeps_appendWave (c : Criterion) (s : State) : Keeps s (appendWave c s) :=
  keeps_of_only (appendWave_only c s) (by simp)

theorem keeps_setWaveCursor (n : Nat) (b : Bool) (s : State) : Keeps s (s.setWaveCursor n b) :=
  keeps_of_only (setWaveCursor_only n b s) (by simp)

theorem keeps_mapRecord (n : Nat) (f : Outage → Outage) (s : State) : Keeps s (mapRecord n f s) :=
  keeps_of_only (mapRecord_only n f s) (by simp)

theorem keeps_leaveCount (n : Nat) (s : State) : Keeps s (leaveCount n s) := keeps_mapRecord _ _ s

theorem keeps_enterCount (n : Nat) (s : State) : Keeps s (enterCount n s) := keeps_mapRecord _ _ s

theorem keeps_setPass (n : Nat) (b : Bool) (s : State) : Keeps s (s.setPass n b) :=
  keeps_of_only (setPass_only n b s) (by simp)

theorem keeps_setRunState (r : RunState) (s : State) : Keeps s (s.setRunState r) :=
  keeps_of_only (setRunState_only r s) (by simp)

theorem keeps_setSst (x : Sst) (s : State) : Keeps s (s.setSst x) := keeps_of_only (setSst_only x s) (by simp)

theorem keeps_setTmb (t : Tmb) (s : State) : Keeps s (s.setTmb t) := keeps_of_only (setTmb_only t s) (by simp)

theorem keeps_putOrder (k x : Nat) (s : State) : Keeps s (putOrder k x s) := keeps_of_only (putOrder_only k x s) (by simp)

theorem keeps_setPoll (p : Option Poll) (s : State) : Keeps s (s.setPoll p) := keeps_ppl rfl

theorem keeps_setLink (l : Link) (d : Nat) (s : State) : Keeps s (setLink l d s) := keeps_setDrop d _ s

theorem keeps_olz (o : Olz) (s : State) : Keeps s { s with olz := o } := .of_tables id rfl rfl rfl rfl

theorem keeps_rsw (r : Rsw) (s : State) : Keeps s { s with rsw := r } := .of_tables id rfl rfl rfl rfl

theorem keeps_mxp (m : Mxp) (s : State) : Keeps s { s with mxp := m } := .of_tables id rfl rfl rfl rfl

theorem keeps_aen (a : Aen) (s : State) : Keeps s { s with aen := a } := .of_tables id rfl rfl rfl rfl

theorem keeps_urx (u : Urx) (s : State) : Keeps s { s with urx := u } := .of_tables id rfl rfl rfl rfl

theorem keeps_draws (n : Nat) (s : State) : Keeps s { s with draws := n } := .of_tables id rfl rfl rfl rfl

theorem keeps_handCredit (d m : Nat) (n : Option Nat) (a b : Word) (s : State) : Keeps s (handCredit d m n a b s) := by
  unfold handCredit
  split
  · next hfree => exact keeps_writeRecord hfree
  · exact (keeps_setDrop d _ s).trans (keeps_raise _ _)

theorem keeps_endEpisode (d : Nat) (s : State) : Keeps s (endEpisode d s) := by
  unfold endEpisode
  dsimp only
  split
  · exact .refl s
  · exact .ite (keeps_setDrop d _ s) ((keeps_setDrop d _ s).trans (keeps_handCredit ..))

theorem keeps_queueRequest (c : QClass) (u : Bool) (d : Nat) (s : State) : Keeps s (queueRequest c u d s).1 := by
  unfold queueRequest
  dsimp only
  split
  · exact .refl s
  · exact .ite (keeps_setQueue _ s) (.refl s)
  · exact keeps_setDrop d _ s
  · exact .refl s
  · split
    · exact keeps_setDrop d _ s
    · split
      · exact (keeps_setQueue _ s).trans (keeps_setDrop d _ _)
      · exact .refl s

theorem keeps_request (c : QClass) (u : Bool) (d : Nat) (s : State) : Keeps s (request c u d s) :=
  keeps_queueRequest c u d s

theorem keeps_parkedRequest (c : QClass) (d : Nat) (s : State) : Keeps s (parkedRequest c d s).1 := by
  unfold parkedRequest
  split
  · exact (keeps_setQueue _ s).trans (keeps_setDrop d _ _)
  · exact .refl s

theorem keeps_vacate (d : Nat) (s : State) : Keeps s (vacate d s) := by
  unfold vacate
  dsimp only
  have h := (Keeps.ite (c := (s.drop d).link = some .queued) (keeps_setQueue (removeEntry d s.aen.queue) s)
    (.refl s)).trans (keeps_setDrop d (s.drop d).vacated _)
  split
  · exact h
  · exact h.trans (keeps_leaveCount _ _)

theorem keeps_markEnded (s : State) : Keeps s (markEnded s) := .foldl (fun s _ => keeps_setEvent _ _ s) _ s

theorem keeps_startHead (s : State) : Keeps s (startHead s) := by
  unfold startHead
  split
  · exact .refl s
  · exact .ite (.refl s) (.ite ((keeps_setWaves _ s).trans (keeps_markEnded _)) (keeps_setWaves _ s))

/-! ## The line-up and the carousel -/

theorem keeps_storeResolution (k : Nat) (s : State) : Keeps s (storeResolution k s) := keeps_setSlot k _ s

theorem keeps_resolveSlot (k : Nat) (s : State) : Keeps s (resolveSlot k s) := by
  unfold resolveSlot
  dsimp only
  have h := keeps_storeResolution k s
  have g := Keeps.ite (c := ((s.slot k).cfg.enabled && (resolution s k).1 != (s.slot k).resolved) = true)
    (h.trans (keeps_putOrder k (resolution s k).1 _)) h
  exact .ite (g.trans (keeps_rebuildMap _ _)) g

theorem keeps_resolveSlots (ks : List Nat) (s : State) : Keeps s (resolveSlots ks s) :=
  .foldl (fun s k => keeps_resolveSlot k s) ks s

theorem keeps_resolveNonExempt (s : State) : Keeps s (resolveNonExempt s) := keeps_resolveSlots _ s

theorem keeps_setLatch (b : Bool) (k : Nat) (s : State) : Keeps s (setLatch b k s) := keeps_setSlot k _ s

theorem keeps_rebuildAll (s : State) : Keeps s (rebuildAll s) :=
  (Keeps.foldl (fun s p => keeps_rebuildMap p s) _ s).trans (.foldl (fun s p => keeps_rebuildEvents p s) _ _)

theorem keeps_resolveAllAfresh (s : State) : Keeps s (resolveAllAfresh s) :=
  (Keeps.foldl (fun s k => keeps_storeResolution k s) _ s).trans (keeps_mxp _ _)

theorem keeps_eventChanged (k : Nat) (e : Event) (n : EventState) (s : State) : Keeps s (eventChanged k e n s) := by
  unfold eventChanged
  dsimp only
  have h1 := keeps_raise .event s
  have h2 := Keeps.ite (c := e.state = .showing ∨ n = .showing) (h1.trans (keeps_resolveSlot e.cfg.slot _)) h1
  have h3 := h2.trans (keeps_rebuildEvents (eventPageOf k) _)
  exact .ite (h3.trans (keeps_appendWave _ _)) h3

theorem keeps_evaluateEvents (s : State) : Keeps s (evaluateEvents s) :=
  (Keeps.foldl (fun s _ => keeps_setEvent _ _ s) _ s).trans (.foldl (fun s _ => keeps_eventChanged _ _ _ s) _ _)

theorem keeps_evaluateIfSet (s : State) : Keeps s (evaluateIfSet s) := (keeps_evaluateEvents s).ite (.refl s)

theorem keeps_slotSetEffect (k : Nat) (c : SlotCfg) (s : State) : Keeps s (slotSetEffect k c s) := by
  unfold slotSetEffect
  dsimp only
  refine .ite (.refl s) ?_
  have h1 := fun r => (keeps_setSlot k r s).trans (keeps_resolveSlot k _)
  have h2 := fun (p : Prop) [Decidable p] r x => Keeps.ite (c := p) ((h1 r).trans (keeps_putOrder k x _)) (h1 r)
  have h3 := fun (p q : Prop) [Decidable p] [Decidable q] r x w =>
    Keeps.ite (c := q) ((h2 p r x).trans (keeps_appendWave w _)) (h2 p r x)
  exact .ite ((h3 _ _ _ _ _).trans (keeps_rebuildMap _ _)) (h3 _ _ _ _ _)

theorem keeps_eventAddEffect (k : Nat) (c : EventCfg) (s : State) : Keeps s (eventAddEffect k c s) := by
  unfold eventAddEffect
  dsimp only
  have h := fun e => keeps_setEvent k e s
  exact (Keeps.ite ((h _).trans (keeps_resolveSlot _ _)) (h _)).trans (keeps_rebuildEvents _ _)

theorem keeps_eventCancelEffect (k : Nat) (e : Event) (s : State) : Keeps s (eventCancelEffect k e s) :=
  (keeps_setEvent k _ s).trans (keeps_eventChanged k e .ended _)

theorem keeps_setCarousel (m : CarouselMode) (s : State) : Keeps s (s.setCarousel m) := keeps_crs rfl rfl rfl

theorem keeps_completeCircuit (s : State) : Keeps s (completeCircuit s) := by
  have hstopped : Keeps s { s with crs := { s.crs with mode := .stopped, cursor := 0, burst := s.crs.burst - 1 } } :=
    keeps_crs rfl rfl rfl
  unfold completeCircuit
  dsimp only
  split
  · exact .ite (hstopped.trans (keeps_raise ..)) (keeps_crs rfl rfl rfl)
  all_goals exact keeps_crs rfl rfl rfl

theorem keeps_afterSending (e : Nat) (s : State) : Keeps s (afterSending e s) := by
  unfold afterSending
  dsimp only
  have moved := Keeps.ite (c := ((List.range 16).any fun k => decide (e < k) && s.eligibleEntry k) = true)
    (keeps_crs (c := { s.crs with cursor := e + 1 }) rfl rfl rfl) (keeps_completeCircuit s)
  split
  · exact moved
  · exact moved
  · exact .refl s
  · exact .refl s

theorem keeps_emergencyOnEffect (a b c d : Nat) (s : State) : Keeps s (emergencyOnEffect a b c d s) :=
  (keeps_setOverride _ s).ite ((keeps_setOverride _ s).trans (keeps_resolveNonExempt _))

theorem keeps_endOverride (s : State) : Keeps s (endOverride s) :=
  ((keeps_setOverride _ s).trans (keeps_raise _ _)).trans (keeps_resolveNonExempt _)

theorem keeps_takeExpiry (s : State) : Keeps s (takeExpiry s) := (keeps_endOverride s).ite (.refl s)

theorem keeps_takeAlert (s : State) : Keeps s (takeAlert s) := (keeps_setOverride _ s).ite (.refl s)

/-! ## Sources and the matrix -/

theorem keeps_usabilityChanged (k : Nat) (s : State) : Keeps s (usabilityChanged k s) := keeps_resolveSlots _ s

theorem keeps_sourceSetEffect (k : Nat) (c : SourceCfg) (s : State) : Keeps s (sourceSetEffect k c s) :=
  (keeps_setSource k _ s).ite ((keeps_setSource k _ s).trans (keeps_usabilityChanged k _))

theorem keeps_sourceLost (k : Nat) (b : Bool) (s : State) : Keeps s (sourceLost k b s) :=
  (((Keeps.foldl (fun s j => keeps_setLatch true j s) _ s).trans (keeps_raiseIf _ _ _)).trans (keeps_raiseIf _ _ _)).trans
    (keeps_resolveSlots _ _)

theorem keeps_sourceReturned (k : Nat) (s : State) : Keeps s (sourceReturned k s) :=
  (Keeps.foldl (fun s j => keeps_setLatch false j s) _ s).trans (keeps_usabilityChanged k _)

theorem keeps_reportPresence (k : Nat) (r : Report) (s : State) : Keeps s (reportPresence k r s) := by
  cases r with
  | none => exact .refl s
  | lost b => exact (keeps_raise .source s).trans (keeps_sourceLost k b _)
  | returned => exact (keeps_raise .source s).trans (keeps_sourceReturned k _)

theorem keeps_judgeSample (counts : List Byte) (s : State) : Keeps s (judgeSample counts s) :=
  (Keeps.foldl (fun s k => keeps_setSource k _ s) _ s).trans (.foldl (fun s k => keeps_reportPresence k _ s) _ _)

theorem keeps_issueNext (s : State) : Keeps s (issueNext s) := by
  have hread : Keeps s (issueRead s) := keeps_mxp _ s
  have horder : Keeps s (issueOrder s) := by
    unfold issueOrder
    split
    · exact .refl s
    · exact keeps_mxp _ s
  unfold issueNext
  refine .ite (hread.ite (.refl s)) (horder.ite ?_)
  split
  · exact hread
  · exact horder

theorem keeps_endFlight (s : State) : Keeps s (endFlight s) := keeps_mxp _ s

theorem keeps_setCarried (k : Nat) (x : Option Nat) (b : Bool) (s : State) : Keeps s (setCarried k x b s) :=
  keeps_setSlot k _ s

/-! ## The outage log and the transition of a drop -/

theorem keeps_openRecord (k : OutageKind) (c : Bool) (r : Nat) (o : Word) (z : Option Word) (s : State) :
    Keeps s (openRecord k c r o z s).1 := (keeps_olz _ s).trans (keeps_raise _ _)

theorem keeps_clearRecord (n : Nat) (r : CloseReason) (x : List Nat) (b : Bool) (s : State) :
    Keeps s (clearRecord n r x b s) := (keeps_olz _ s).trans (keeps_raise _ _)

theorem keeps_setUnlogged (b : Bool) (u : Nat) (s : State) : Keeps s (setUnlogged b u s) := keeps_setUnit u _ s

theorem keeps_flagUnlogged (u : Nat) (s : State) : Keeps s (flagUnlogged u s) :=
  (keeps_setUnlogged true u s).trans (keeps_raise _ _)

theorem keeps_openSilent (u : Nat) (s : State) : Keeps s (openSilent u s) :=
  (keeps_openRecord _ _ _ _ _ s).trans (.foldl (fun s m => keeps_clearRecord m _ _ _ s) _ _)

theorem keeps_enteredSilent (u : Nat) (s : State) : Keeps s (enteredSilent u s) :=
  .ite (.refl s) ((keeps_openSilent u s).ite (keeps_flagUnlogged u s))

theorem keeps_searchUnlogged (s : State) : Keeps s (searchUnlogged s) :=
  .foldl (fun s u => .ite ((keeps_openSilent u s).trans (keeps_setUnlogged _ _ _)) (.refl s)) _ s

theorem keeps_openSplits (o : Outage) (us : List Nat) (s : State) : Keeps s (openSplits o us s).1 := by
  induction us generalizing s with
  | nil => exact .refl s
  | cons u us ih =>
    unfold openSplits
    split
    · exact (keeps_openRecord _ _ _ _ _ s).trans ((keeps_setUnlogged _ _ _).trans (ih _))
    · exact .refl s

theorem keeps_endSilent (o : Outage) (s : State) : Keeps s (endSilent o s) := by
  unfold endSilent
  dsimp only
  have h := keeps_openSplits o (splitRoots s o.root) s
  exact (Keeps.ite (h.trans (keeps_clearRecord ..)) (h.trans (keeps_clearRecord ..))).trans
    (.foldl (fun s u => keeps_flagUnlogged u s) _ _)

theorem keeps_unitRecovered (u : Nat) (s : State) : Keeps s (unitRecovered u s) := by
  unfold unitRecovered
  split
  · exact keeps_endSilent _ s
  · exact .refl s

theorem keeps_leaveOutage (d m : Nat) (s : State) : Keeps s (leaveOutage d m s) :=
  ((keeps_endEpisode d s).trans (keeps_setDrop d _ _)).trans (keeps_leaveCount m _)

theorem keeps_enterOutage (d n : Nat) (s : State) : Keeps s (enterOutage d n s) :=
  (keeps_setDrop d _ s).trans (keeps_enterCount n _)

theorem keeps_markLink (d : Nat) (s : State) : Keeps s (markLink d s) := by
  unfold markLink
  dsimp only
  split
  · exact (keeps_setQueue _ s).trans (keeps_setDrop d _ _)
  · exact keeps_setDrop d _ s
  all_goals exact .refl s

theorem keeps_transition (d : Nat) (n : Option Nat) (s : State) : Keeps s (transition d n s) := by
  unfold transition
  dsimp only
  split
  · exact .refl s
  · exact .ite (keeps_vacate d s) ((keeps_enterOutage d _ s).trans (keeps_markLink d _))
  · exact (keeps_leaveOutage d _ s).trans (keeps_setDrop d _ _)
  · refine .ite (.refl s) (.ite ?_ ((keeps_leaveOutage d _ s).trans (keeps_enterOutage d _ _)))
    exact (keeps_setDrop d _ s).trans ((keeps_leaveCount _ _).trans (keeps_enterCount _ _))

theorem keeps_evaluateDrop (d : Nat) (s : State) : Keeps s (evaluateDrop d s) := by
  unfold evaluateDrop
  dsimp only
  have h := keeps_transition d (s.proper d) s
  exact .ite (h.trans (keeps_parkedRequest _ _ _)) h

theorem keeps_startPass (s : State) : Keeps s (startPass s) := keeps_olz _ s

theorem keeps_settleVisit (s : State) : Keeps s (settleVisit s) := by
  have hmove := fun d => (keeps_transition d (s.proper d) s).ite (.refl s)
    (c := (s.drop d).outage ≠ s.proper d ∧ (s.isTaken (s.drop d).outage || s.isTaken (s.proper d)) = true)
  have hat : Keeps s (settleAt s) := by
    unfold settleAt
    dsimp only
    have hplaced := (hmove s.olz.cursor).trans (keeps_parkedRequest .settle s.olz.cursor _)
    exact .ite (keeps_setPass _ _ s) (.ite (.ite (hplaced.trans (keeps_setPass _ _ _))
      (hplaced.trans (keeps_setPass _ _ _))) ((hmove _).trans (keeps_setPass _ _ _)))
  exact .ite (hat.trans (keeps_aen _ _)) hat

theorem keeps_closeRecord (n : Nat) (s : State) : Keeps s (closeRecord n s) :=
  ((keeps_olz _ s).trans (keeps_raise _ _)).trans (keeps_searchUnlogged _)

theorem keeps_endPass (s : State) : Keeps s (endPass s) := by
  have hclosed := Keeps.foldl
    (fun s (t : Nat × Bool) => Keeps.ite (c := t.2 = true) (keeps_closeRecord t.1 s) (.refl s)) s.olz.taken s
  have h := fun o => hclosed.trans (keeps_olz o _)
  exact .ite ((h _).trans (keeps_startPass _)) (h _)

/-! ## The plant -/

theorem keeps_leaveService (u : Nat) (s : State) : Keeps s (leaveService u s) :=
  .ite ((keeps_setUnit u _ s).trans (keeps_unitRecovered u _)) (keeps_setUnit u _ s)

theorem keeps_removePoll (s : State) : Keeps s (removePoll s) := .ite (keeps_ppl rfl) (keeps_ppl rfl)

theorem keeps_applyHeld (u : Nat) (s : State) : Keeps s (applyHeld u s) :=
  .ite (.refl s) (.ite (keeps_leaveService u s) (.ite (keeps_setUnit u _ s) (.refl s)))

theorem keeps_endPoll (p : Poll) (s : State) : Keeps s (endPoll p s) :=
  .ite ((keeps_removePoll s).trans (keeps_applyHeld _ _)) (keeps_removePoll s)

theorem keeps_holdChange (p : Poll) (s : State) : Keeps s (holdChange p s) := .ite (keeps_setPoll _ s) (keeps_endPoll _ s)

theorem keeps_unitAnswered (u : Nat) (st : UnitStatus) (s : State) : Keeps s (unitAnswered u st s) :=
  .ite (((keeps_setUnit u _ s).trans (keeps_raiseIf _ _ _)).trans (keeps_unitRecovered u _))
    ((keeps_setUnit u _ s).trans (keeps_raiseIf _ _ _))

theorem keeps_pollAnswer (w : Window) (st : UnitStatus) (s : State) : Keeps s (pollAnswer w st s) := by
  unfold pollAnswer
  split
  · exact .refl s
  · exact .ite ((keeps_unitAnswered _ _ s).trans (keeps_endPoll _ _)) (.refl s)

theorem keeps_unitMissed (u : Nat) (w : Word) (s : State) : Keeps s (unitMissed u w s) :=
  .ite (((keeps_setUnit u _ s).trans (keeps_raise _ _)).trans (keeps_enteredSilent u _)) (keeps_setUnit u _ s)

theorem keeps_pollMiss (w : Window) (s : State) : Keeps s (pollMiss w s) := by
  unfold pollMiss
  split
  · exact .refl s
  · exact .ite (.refl s) (.ite ((keeps_unitMissed _ _ s).trans (keeps_endPoll _ _))
      (.ite (keeps_endPoll _ s) (keeps_setPoll _ s)))

theorem keeps_startCycle (s : State) : Keeps s (startCycle s) := keeps_ppl rfl

theorem keeps_takeCycleExpiry (s : State) : Keeps s (takeCycleExpiry s) :=
  .ite (.ite (keeps_ppl rfl) (Keeps.trans (t := { s with ppl := { s.ppl with timer := 0 } }) (keeps_ppl rfl)
    (keeps_startCycle _))) (.refl s)

theorem keeps_beginPoll (s : State) : Keeps s (beginPoll s) := by
  unfold beginPoll
  dsimp only
  split
  · exact keeps_setPoll _ s
  all_goals exact keeps_ppl rfl

theorem keeps_endCycle (s : State) : Keeps s (endCycle s) :=
  .ite (Keeps.trans (t := { s with ppl := { s.ppl with heldExpiry := false } }) (keeps_ppl rfl) (keeps_startCycle _))
    (keeps_ppl rfl)

theorem keeps_stopCycle (s : State) : Keeps s (stopCycle s) := by
  have h : Keeps s { s with ppl := { s.ppl with heldExpiry := false } } := keeps_ppl rfl
  unfold stopCycle
  dsimp only
  split
  · exact keeps_ppl rfl
  · exact .ite h (h.trans (keeps_endPoll _ _))

theorem keeps_unitSetEffect (u : Nat) (k : UnitKind) (p : Option Nat) (a : Option Addr) (s : State) :
    Keeps s (unitSetEffect u k p a s) := by
  unfold unitSetEffect
  dsimp only
  have h := keeps_setUnit u ((s.unit u).withKind k p a) s
  split
  · exact h
  · exact .ite (h.trans (keeps_endPoll _ _)) h

theorem keeps_unitServiceEffect (u : Nat) (on : Bool) (s : State) : Keeps s (unitServiceEffect u on s) := by
  have h : Keeps s (setInService on u s) := keeps_setUnit u _ s
  unfold unitServiceEffect
  dsimp only
  refine .ite (.refl s) ?_
  split
  · exact .ite h (h.trans (keeps_holdChange _ _))
  · exact .ite (h.trans (keeps_setUnit u _ _)) (h.trans (keeps_leaveService u _))

theorem keeps_excuseUnit (u : Nat) (s : State) : Keeps s (excuseUnit u s) := by
  unfold excuseUnit
  split
  · exact keeps_holdChange _ s
  · exact keeps_setUnit u _ s

theorem keeps_outageDeclareEffect (u : Nat) (c : Bool) (s : State) : Keeps s (outageDeclareEffect u c s).1 :=
  (keeps_openRecord _ _ _ _ _ s).trans (.foldl (fun s u => keeps_excuseUnit u s) _ _)

theorem keeps_outageEndEffect (o : Outage) (s : State) : Keeps s (outageEndEffect o s) :=
  (keeps_clearRecord _ _ _ _ s).trans (.foldl (fun s u => keeps_setUnit u _ s) _ _)

/-! ## Window outcomes, purchases and waves -/

theorem keeps_leaveUnconfirmed (k : Kind) (d : Nat) (s : State) : Keeps s (leaveUnconfirmed k d s) :=
  .ite ((keeps_vacate d s).trans (keeps_raise _ _)) ((keeps_setLink _ d s).trans (keeps_raise _ _))

theorem keeps_requestAgain (c : QClass) (k : Kind) (d : Nat) (s : State) : Keeps s (requestAgain c k d s) :=
  .ite ((keeps_queueRequest c false d s).trans (keeps_leaveUnconfirmed k d _)) (keeps_queueRequest c false d s)

theorem keeps_linkAck (k : Kind) (d : Nat) (s : State) : Keeps s (linkAck k d s) :=
  .ite ((keeps_setDrop d _ s).trans (keeps_requestAgain _ k d _))
    (.ite ((keeps_setDrop d _ s).trans (keeps_vacate d _)) (keeps_setDrop d _ s))

theorem keeps_authMiss (d : Nat) (s : State) : Keeps s (authMiss d s) :=
  .ite (.refl s) (.ite (keeps_setDrop d _ s) (.ite ((keeps_setDrop d _ s).trans (keeps_requestAgain _ _ d _))
    (.ite ((keeps_setDrop d _ s).trans (keeps_requestAgain _ _ d _))
      ((keeps_setDrop d _ s).trans (keeps_leaveUnconfirmed _ d _)))))

/-- A purchase is TAKEN only while the journal has more than its reserve free (R97, R98). -/
theorem free_of_taken {s : State} {d p : Nat} (h : judgePurchase s d p = .taken) : 1 ≤ s.free := by
  have hnormal : s.effectiveMode = .normal := by
    unfold judgePurchase at h
    cases hm : s.effectiveMode <;> simp [hm] at h
    rfl
  unfold State.effectiveMode at hnormal
  cases hm : s.pin.mode <;> simp [hm] at hnormal
  omega

theorem keeps_purchase (d p : Nat) (s : State) : Keeps s (purchase d p s) := by
  have hreq : Keeps s (purchaseRequest d s) := (keeps_request _ _ d s).ite (.refl s)
  unfold purchase
  refine .ite (.refl s) ?_
  split
  · next h =>
    have hfree : 1 ≤ s.free := free_of_taken h
    have hdrop := keeps_setDrop d { s.drop d with events := (s.drop d).events ++ [p] } s
    exact ((hdrop.trans (keeps_writeRecord hfree)).trans (keeps_request ..)).trans (keeps_raise ..)
  · exact hreq
  · exact hreq.trans (keeps_raise ..)
  · exact .refl s

theorem keeps_authAck (d p : Nat) (s : State) : Keeps s (authAck d p s) :=
  (Keeps.ite (.refl s) (keeps_linkAck _ d s)).trans (keeps_purchase d p _)

theorem keeps_takeOutstanding (d : Nat) (s : State) : Keeps s (takeOutstanding d s).1 := keeps_rsw _ s

theorem keeps_refreshAck (d p : Nat) (s : State) : Keeps s (refreshAck d p s) :=
  (Keeps.ite (keeps_takeOutstanding d s) ((keeps_takeOutstanding d s).trans (keeps_linkAck _ d _))).trans
    (keeps_purchase d p _)

theorem keeps_linkRefreshMiss (prior : Link) (d : Nat) (s : State) : Keeps s (linkRefreshMiss prior d s) :=
  .ite (keeps_setDrop d _ s) (.ite (((keeps_setDrop d _ s).trans (keeps_requestAgain _ _ d _)).trans (keeps_raiseIf ..))
    (.ite ((keeps_setDrop d _ s).trans (keeps_leaveUnconfirmed _ d _)) (keeps_setDrop d _ s)))

theorem keeps_refreshMiss (d : Nat) (s : State) : Keeps s (refreshMiss d s) :=
  .ite (keeps_takeOutstanding d s) ((keeps_takeOutstanding d s).trans (keeps_linkRefreshMiss _ d _))

theorem keeps_visitDrop (c : Criterion) (d : Nat) (s : State) : Keeps s (visitDrop c d s) := by
  have hstrip : Keeps s (stripDrop c d s) := .ite (.refl s) (keeps_setDrop d _ s)
  have hreq := hstrip.trans (keeps_queueRequest .wave false d _)
  exact .ite (keeps_setWaveCursor _ _ s) (.ite (.ite (hreq.trans (keeps_setWaveCursor ..))
    (hreq.trans (keeps_setWaveCursor ..))) (hstrip.trans (keeps_setWaveCursor ..)))

theorem keeps_waveVisit (s : State) : Keeps s (waveVisit s) := by
  unfold waveVisit
  dsimp only
  split
  · exact keeps_startHead s
  · exact (keeps_startHead s).trans (keeps_visitDrop _ _ _)

theorem keeps_waveComplete (s : State) : Keeps s (waveComplete s) := by
  unfold waveComplete
  split
  · exact .refl s
  · exact ((keeps_aen _ s).trans (.foldl (fun s e => .ite (keeps_setEvent _ _ s) (.refl s)) _ _)).trans
      (keeps_startHead _)

/-! ## Seconds, boundaries and upstream frames -/

theorem keeps_refreshCount (s : State) : Keeps s (refreshCount s) := .ite (keeps_rsw _ s) (keeps_rsw _ s)

theorem keeps_boundaryCount (s : State) : Keeps s (boundaryCount s) :=
  .ite (keeps_rsw _ s) (.ite (keeps_refreshCount s) (.refl s))

theorem keeps_settleSecond (s : State) : Keeps s (settleSecond s) :=
  ((keeps_takeExpiry s).trans (keeps_takeAlert _)).trans (keeps_takeCycleExpiry _)

theorem keeps_secondAdvance (s : State) : Keeps s (secondAdvance s) :=
  (((keeps_settleSecond s).trans (keeps_setTmb _ _)).trans (keeps_evaluateIfSet _)).trans (.ite (keeps_ppl rfl) (.refl _))

theorem keeps_closeWindow (s : State) : Keeps s (closeWindow s) := (keeps_setTmb _ s).ite (.refl s)

theorem keeps_referenceReturn (s : State) : Keeps s (referenceReturn s) :=
  ((keeps_setTmb _ s).trans (keeps_raise ..)).ite (.refl s)

theorem keeps_takeSample (s : State) : Keeps s (takeSample s) := by
  unfold takeSample
  split
  · exact .ite (keeps_setTmb _ s) ((keeps_setTmb _ s).trans (keeps_raise ..))
  · exact keeps_setTmb _ s

theorem keeps_stoppingEnd (s : State) : Keeps s (stoppingEnd s) := (keeps_setRunState _ s).ite (.refl s)

theorem keeps_handMiss (w : Window) (s : State) : Keeps s (handMiss w s) := by
  unfold handMiss
  split
  · exact keeps_authMiss _ s
  · exact keeps_refreshMiss _ s
  · exact keeps_pollMiss w s

theorem keeps_closeWindows (s : State) : Keeps s (closeWindows s) :=
  (keeps_filterWindows _ s).trans (.foldl (fun s w => keeps_handMiss w s) _ _)

theorem mayOpen_congr {s t : State} (h : t.csc.windows = s.csc.windows) (a : Addr) : mayOpen t a = mayOpen s a := by
  rw [mayOpen, mayOpen, windowCarries, windowCarries, h]

theorem keeps_sendAuthorize (d : Nat) (s : State) : Keeps s (sendAuthorize d s) :=
  (keeps_setQueue _ s).trans (keeps_setDrop d _ _)

theorem keeps_sendRefresh (d : Nat) (s : State) : Keeps s (sendRefresh d s) := (keeps_rsw _ s).trans (keeps_setLink _ d _)

theorem keeps_grantTo (n : Word) (x : Sender) (s : State) : Keeps s (grantTo n x s).1 := by
  cases x with
  | alert => unfold grantTo; dsimp only; split; exacts [keeps_setOverride _ s, .refl s]
  | carousel => unfold grantTo; dsimp only; split; exacts [keeps_afterSending _ s, .refl s]
  | authorize =>
    unfold grantTo grantAuthorize
    dsimp only
    split
    · exact .refl s
    · split
      · exact .refl s
      · split
        · next hopen =>
          exact (keeps_sendAuthorize _ s).trans (keeps_openWindow ((mayOpen_congr rfl _).trans hopen))
        · exact .refl s
  | poll =>
    unfold grantTo grantPoll
    dsimp only
    split
    · exact .refl s
    · next p _ =>
      split
      · next hopen =>
        have hsend : Keeps s (sendPoll p s) := keeps_setPoll _ s
        exact hsend.trans (keeps_openWindow ((mayOpen_congr rfl _).trans (Bool.and_eq_true_iff.mp hopen).2))
      · exact .refl s
  | refresh =>
    unfold grantTo grantRefresh
    dsimp only
    split
    · exact .refl s
    · split
      · exact .ite (keeps_rsw _ s) (.refl s)
      · split
        · exact .refl s
        · split
          · next hopen => exact (keeps_sendRefresh _ s).trans (keeps_openWindow ((mayOpen_congr rfl _).trans hopen))
          · exact .refl s

theorem keeps_grantFrom (ready : Sender → Bool) (n : Word) (xs : List Sender) (s : State) :
    Keeps s (grantFrom ready n xs s).1 := by
  induction xs generalizing s with
  | nil => exact .refl s
  | cons x xs ih =>
    have hx := keeps_grantTo n x s
    unfold grantFrom
    split
    · split
      · next he => rw [he] at hx; exact hx
      · next he => rw [he] at hx; exact hx.trans (ih _)
    · exact ih s

theorem keeps_beginSlot (n : Word) (g : Option Sender) (f : Frame) (s : State) : Keeps s (beginSlot n g f s) :=
  keeps_csc rfl

theorem keeps_grantSlot (before : Marks) (n : Word) (s : State) : Keeps s (grantSlot before n s) := by
  unfold grantSlot
  dsimp only
  have h := (keeps_draws (s.draws + 1) s).trans (keeps_grantFrom (heldReadiness s.draws before s.owedMarks) n s.ranks _)
  have hfloor : ∀ (n : Nat) (t : State), Keeps t { t with csc := { t.csc with floor := n } } := fun _ _ => keeps_csc rfl
  split
  · exact (h.trans (hfloor _ _)).trans (keeps_beginSlot ..)
  · exact (h.trans (hfloor _ _)).trans (keeps_beginSlot ..)

theorem keeps_fillSlot (before : Marks) (n : Word) (s : State) : Keeps s (fillSlot before n s) :=
  .ite (keeps_grantSlot before n s) (keeps_beginSlot n none fillerFrame s)

theorem keeps_slotBoundary (s : State) : Keeps s (slotBoundary s) :=
  ((((keeps_boundaryCount s).trans (keeps_closeWindows _)).trans (keeps_stoppingEnd _)).trans (keeps_fillSlot ..)).trans
    (keeps_setTmb _ _)

theorem keeps_settleBoundary (s : State) : Keeps s (settleBoundary s) :=
  ((keeps_secondAdvance s).ite (.refl s)).trans (keeps_settleSecond _)

theorem keeps_captureStray (c : StrayCause) (f : Frame) (s : State) : Keeps s (captureStray c f s) := by
  unfold captureStray
  split
  · exact .refl s
  · exact (keeps_urx _ s).trans (keeps_raise ..)

theorem keeps_takeAnswer (w : Window) (u : Upstream) (s : State) : Keeps s (takeAnswer w u s) := by
  have h := keeps_filterWindows (fun x => x.address != w.address) s
  unfold takeAnswer
  dsimp only
  split
  · exact h.trans (keeps_authAck ..)
  · exact h.trans (keeps_refreshAck ..)
  · exact h.trans (keeps_pollAnswer ..)
  all_goals exact .refl s

theorem keeps_judgeFrame (f : Frame) (s : State) : Keeps s (judgeFrame f s) := by
  unfold judgeFrame matchFrame
  split
  · exact keeps_captureStray ..
  · split
    · exact keeps_captureStray ..
    · exact .ite (keeps_captureStray ..) (.ite (keeps_captureStray ..)
        ((keeps_takeAnswer ..).trans (keeps_stoppingEnd _)))

end Sys2Proof.Proofs

namespace Sys2Proof.Proofs

open Sys2Proof Sys2Proof.Machine Sys2Proof.Laws

/-! ## The verbs keep the invariants -/

/-- A drop verb that passes its check for JOURNAL has a record free to write (R142). -/
theorem free_of_open {s : State} (h : ¬4096 - s.bjn.held.length ≤ 256) : 1 ≤ s.free := by
  unfold State.free
  omega

theorem free_of_not_shut {s : State} (h : s.journalShut ≠ true) : 1 ≤ s.free := free_of_open (mt journalShut_iff.mpr h)

theorem keeps_connectEffect {d u : Nat} {a : Addr} {account : Word} {t : TierSet} {s : State} (hfree : 1 ≤ s.free) :
    Keeps s (connectEffect d a account u t s) := by
  have hwrite := (keeps_setDrop d (Drop.connected a account u t s.tmb.run) s).trans
    (keeps_writeRecord (b := .connect d (some account) (some a) t) hfree)
  have hmove := fun n => hwrite.trans (keeps_transition d n _)
  exact .ite ((hmove _).trans (keeps_setDrop d _ _)) ((hmove _).trans (keeps_request ..))

theorem keeps_tiersEffect {d : Nat} {t : TierSet} {s : State} (hfree : 1 ≤ s.free) : Keeps s (tiersEffect d t s) := by
  have hwrite := (keeps_setDrop d { s.drop d with tiers := t } s).trans
    (keeps_writeRecord (b := .tiers d (s.drop d).account (s.drop d).tiers t) hfree)
  exact .ite (hwrite.trans (keeps_request ..)) hwrite

theorem keeps_suspendEffect {d : Nat} {s : State} (hfree : 1 ≤ s.free) : Keeps s (suspendEffect d s) :=
  (((keeps_setDrop d _ s).trans (keeps_writeRecord hfree)).trans (keeps_endEpisode d _)).trans (keeps_request ..)

theorem keeps_resumeEffect {d : Nat} {s : State} (hfree : 1 ≤ s.free) : Keeps s (resumeEffect d s) := by
  have hstart : ∀ s, Keeps s (startAccrual d s) := fun s => .ite (keeps_setDrop d _ s) (.refl s)
  exact ((((keeps_setDrop d _ s).trans (keeps_writeRecord hfree)).trans (hstart _)).trans (keeps_request ..)).trans
    (keeps_evaluateDrop d _)

theorem keeps_disconnectEffect {d : Nat} {s : State} (hfree : 1 ≤ s.free) : Keeps s (disconnectEffect d s) := by
  have hend := (keeps_writeRecord (b := .disconnect d (s.drop d).account) hfree).trans (keeps_endEpisode d _)
  exact .ite (hend.trans (keeps_vacate d _)) ((hend.trans (keeps_setDrop d _ _)).trans (keeps_request ..))

theorem keeps_reassignEffect (d u : Nat) (s : State) : Keeps s (reassignEffect d u s) :=
  ((keeps_setDrop d _ s).trans (keeps_evaluateDrop d _)).trans (.ite (keeps_setDrop d _ _) (.refl _))

theorem keeps_sendEffect (d : Nat) (s : State) : Keeps s (sendEffect d s) :=
  .ite ((keeps_request ..).trans (keeps_setDrop d _ _)) (keeps_request ..)

/-- A service verb that takes a drop number alone keeps the invariants, if its effect does when no check fails. -/
theorem keeps_oneDropVerb {refusal : State → Nat → Option Reason} {effect : Nat → State → State}
    (h : ∀ s d, refusal s d = none → Keeps s (effect d s)) (args : List Text) (s : State) :
    Keeps s (oneDropVerb refusal effect args s).1 := by
  unfold oneDropVerb
  repeat' split
  exacts [.refl s, .refl s, .refl s, h s _ ‹_›, .refl s]

theorem keeps_dropConnectVerb (args : List Text) (s : State) : Keeps s (dropConnectVerb args s).1 := by
  unfold dropConnectVerb
  repeat' split
  · exact .refl s
  · exact .refl s
  · exact .refl s
  · next d a account u t _ _ hpass =>
    have hchecks := connectRefusal_firstOf s d a u
    rw [hpass] at hchecks
    exact keeps_connectEffect (free_of_open (firstOf_none hchecks (_, .journal) (by simp)))

theorem keeps_dropTiersVerb (args : List Text) (s : State) : Keeps s (dropTiersVerb args s).1 := by
  unfold dropTiersVerb
  repeat' split
  · exact .refl s
  · exact .refl s
  · next d t _ _ _ hpass =>
    have hchecks := tiersRefusal_firstOf s d
    rw [hpass] at hchecks
    exact keeps_tiersEffect (free_of_open (firstOf_none hchecks (_, .journal) (by simp)))
  · exact .refl s
  · exact .refl s

theorem keeps_dropSuspend (args : List Text) (s : State) : Keeps s (oneDropVerb suspendRefusal suspendEffect args s).1 :=
  keeps_oneDropVerb (fun s d hpass => by
    have hchecks := suspendRefusal_firstOf s d
    rw [hpass] at hchecks
    exact keeps_suspendEffect (free_of_open (firstOf_none hchecks (_, .journal) (by simp)))) args s

theorem resumeRefusal_firstOf (s : State) (d : Nat) : FirstOf
    [((s.drop d).service ≠ .suspended, .state), (4096 - s.bjn.held.length ≤ 256, .journal),
      (((((s.drop d).link = some .settled ∨ (s.drop d).link = some .unconfirmed) ∧ (s.drop d).outage = none)
          ∨ (((s.drop d).link = some .settled ∨ (s.drop d).link = some .unconfirmed) ∨ (s.drop d).link = some .parked)
            ∧ s.proper d = none)
        ∧ 64 ≤ s.aen.queue.length, .full)] (resumeRefusal s d) :=
  firstOf_ite Iff.rfl <| firstOf_ite journalShut_iff <| firstOf_ite
    (by simp [Drop.needsPlace, Drop.free, State.queueFull]) firstOf_nil

theorem disconnectRefusal_firstOf (s : State) (d : Nat) : FirstOf
    [((s.drop d).service ≠ .active ∧ (s.drop d).service ≠ .suspended, .state), (s.guarded (d / 256) = true, .guarded),
      (4096 - s.bjn.held.length ≤ 256, .journal), (NoPlaceFor (s.drop d) s, .full)] (disconnectRefusal s d) :=
  firstOf_ite unserved_iff <| firstOf_ite Iff.rfl <| firstOf_ite journalShut_iff <|
    firstOf_ite noPlaceFor_iff firstOf_nil

theorem keeps_dropResume (args : List Text) (s : State) : Keeps s (oneDropVerb resumeRefusal resumeEffect args s).1 :=
  keeps_oneDropVerb (fun s d hpass => by
    have hchecks := resumeRefusal_firstOf s d
    rw [hpass] at hchecks
    exact keeps_resumeEffect (free_of_open (firstOf_none hchecks (_, .journal) (by simp)))) args s

theorem keeps_dropDisconnect (args : List Text) (s : State) :
    Keeps s (oneDropVerb disconnectRefusal disconnectEffect args s).1 :=
  keeps_oneDropVerb (fun s d hpass => by
    have hchecks := disconnectRefusal_firstOf s d
    rw [hpass] at hchecks
    exact keeps_disconnectEffect (free_of_open (firstOf_none hchecks (_, .journal) (by simp)))) args s

theorem keeps_dropSend (args : List Text) (s : State) : Keeps s (oneDropVerb sendRefusal sendEffect args s).1 :=
  keeps_oneDropVerb (fun s d _ => keeps_sendEffect d s) args s

theorem keeps_dropReassignVerb (args : List Text) (s : State) : Keeps s (dropReassignVerb args s).1 := by
  unfold dropReassignVerb
  repeat' split
  exacts [.refl s, .refl s, keeps_reassignEffect _ _ s, .refl s, .refl s]

theorem keeps_guardVerb (on : Bool) (args : List Text) (s : State) : Keeps s (guardVerb on args s).1 := by
  unfold guardVerb
  repeat' split
  exacts [.refl s, keeps_setGuard on _ s, .refl s, .refl s]

theorem keeps_slotSetVerb (args : List Text) (s : State) : Keeps s (slotSetVerb args s).1 := by
  unfold slotSetVerb
  repeat' split
  exacts [.refl s, .refl s, .refl s, .refl s, keeps_slotSetEffect _ _ s]

theorem keeps_slotRestoreVerb (args : List Text) (s : State) : Keeps s (slotRestoreVerb args s).1 := by
  unfold slotRestoreVerb
  repeat' split
  exacts [.refl s, .refl s, (keeps_setLatch false _ s).trans (keeps_resolveSlot _ _), .refl s, .refl s]

theorem keeps_eventAddVerb (args : List Text) (s : State) : Keeps s (eventAddVerb args s).1 := by
  unfold eventAddVerb
  repeat' split
  exacts [.refl s, .refl s, .refl s, .refl s, .refl s, .refl s, .refl s, keeps_eventAddEffect _ _ s]

theorem keeps_eventCancelVerb (args : List Text) (s : State) : Keeps s (eventCancelVerb args s).1 := by
  unfold eventCancelVerb
  repeat' split
  exacts [.refl s, .refl s, .refl s, keeps_eventCancelEffect _ _ s, .refl s]

theorem keeps_eventDeleteVerb (args : List Text) (s : State) : Keeps s (eventDeleteVerb args s).1 := by
  unfold eventDeleteVerb
  repeat' split
  exacts [.refl s, .refl s, (keeps_setEvent _ _ s).trans (keeps_rebuildEvents ..), .refl s, .refl s]

theorem keeps_emergencyOnVerb (args : List Text) (s : State) : Keeps s (emergencyOnVerb args s).1 := by
  unfold emergencyOnVerb
  repeat' split
  exacts [.refl s, .refl s, .refl s, keeps_emergencyOnEffect _ _ _ _ s]

theorem keeps_emergencyOffVerb (args : List Text) (s : State) : Keeps s (emergencyOffVerb args s).1 := by
  unfold emergencyOffVerb
  repeat' split
  exacts [keeps_endOverride s, .refl s, .refl s]

theorem keeps_carouselModeVerb (args : List Text) (s : State) : Keeps s (carouselModeVerb args s).1 := by
  unfold carouselModeVerb
  repeat' split
  exacts [.refl s, .refl s, keeps_setCarousel _ s]

theorem keeps_carouselTextVerb (args : List Text) (s : State) : Keeps s (carouselTextVerb args s).1 := by
  unfold carouselTextVerb
  repeat' split
  exacts [.refl s, .refl s, keeps_crs rfl rfl rfl, .refl s]

theorem keeps_carouselEnableVerb (args : List Text) (s : State) : Keeps s (carouselEnableVerb args s).1 := by
  unfold carouselEnableVerb
  repeat' split
  exacts [.refl s, keeps_setEnabled _ _ s, .refl s, .refl s]

theorem keeps_sourceSetVerb (args : List Text) (s : State) : Keeps s (sourceSetVerb args s).1 := by
  unfold sourceSetVerb
  repeat' split
  exacts [.refl s, .refl s, keeps_sourceSetEffect _ _ s, .refl s]

theorem keeps_strayRearmVerb (args : List Text) (s : State) : Keeps s (strayRearmVerb args s).1 := by
  unfold strayRearmVerb
  split
  exacts [keeps_urx _ s, .refl s]

theorem keeps_intakeModeVerb (args : List Text) (s : State) : Keeps s (intakeModeVerb args s).1 := by
  unfold intakeModeVerb
  repeat' split
  exacts [.refl s, .of_tables id rfl rfl rfl rfl, .refl s, .refl s]

theorem keeps_unitSetVerb (args : List Text) (s : State) : Keeps s (unitSetVerb args s).1 := by
  unfold unitSetVerb
  repeat' split
  exacts [.refl s, .refl s, .refl s, keeps_unitSetEffect _ _ _ _ s]

theorem keeps_unitServiceVerb (args : List Text) (s : State) : Keeps s (unitServiceVerb args s).1 := by
  unfold unitServiceVerb
  repeat' split
  exacts [.refl s, keeps_unitServiceEffect _ _ s, .refl s, .refl s, .refl s]

theorem keeps_outageDeclareVerb (args : List Text) (s : State) : Keeps s (outageDeclareVerb args s).1 := by
  unfold outageDeclareVerb
  repeat' split
  exacts [.refl s, .refl s, .refl s, .refl s, keeps_outageDeclareEffect _ _ s, .refl s, .refl s]

theorem keeps_outageEndVerb (args : List Text) (s : State) : Keeps s (outageEndVerb args s).1 := by
  unfold outageEndVerb
  repeat' split
  exacts [.refl s, .refl s, .refl s, .refl s, keeps_outageEndEffect _ s, .refl s]

theorem keeps_releaseRecords (n : Nat) (s : State) : Keeps s (releaseRecords n s) := keeps_dropRecords n s rfl rfl

theorem keeps_journalReleaseVerb (args : List Text) (s : State) : Keeps s (journalReleaseVerb args s).1 := by
  unfold journalReleaseVerb
  repeat' split
  exacts [.refl s, .refl s, .refl s, keeps_releaseRecords _ s, .refl s]

theorem keeps_periodCloseEffect {s : State} (hfree : 1 ≤ s.free) : Keeps s (periodCloseEffect s) :=
  (keeps_writeRecord hfree).trans (keeps_bjn rfl rfl)

theorem keeps_periodCloseVerb (args : List Text) (s : State) : Keeps s (periodCloseVerb args s).1 := by
  unfold periodCloseVerb
  repeat' split
  · exact .refl s
  · exact .refl s
  · next hfree => exact keeps_periodCloseEffect (Nat.one_le_iff_ne_zero.mpr hfree)
  · exact .refl s

theorem keeps_timeSetVerb (args : List Text) (s : State) : Keeps s (timeSetVerb args s).1 := by
  unfold timeSetVerb
  repeat' split
  exacts [.refl s, (keeps_setTmb _ s).trans (keeps_evaluateEvents _), .refl s, .refl s]

theorem keeps_attnClearVerb (args : List Text) (s : State) : Keeps s (attnClearVerb args s).1 := by
  unfold attnClearVerb
  repeat' split
  exacts [keeps_mapAttn (fun _ => Attn.Sound.cleared) _ s, .refl s, .refl s]

theorem keeps_attnMaskVerb (args : List Text) (s : State) : Keeps s (attnMaskVerb args s).1 := by
  unfold attnMaskVerb
  repeat' split
  exacts [keeps_maskKinds _ s, .refl s, .refl s]

theorem keeps_attnForceVerb (args : List Text) (s : State) : Keeps s (attnForceVerb args s).1 := by
  unfold attnForceVerb
  repeat' split
  exacts [keeps_mapAttn (fun _ => Attn.Sound.raised) _ s, .refl s, .refl s]

/-- Of the Office Port, the attention set, the output queue, the reserved place and the inboxes are in an invariant. -/
theorem keeps_ofp {s : State} {o : Ofp} (hattn : o.attn = s.ofp.attn) (hout : o.outQ = s.ofp.outQ)
    (hclear : o.clearTag = s.ofp.clearTag) (hinbox : ∀ l, (o.inbox l).length ≤ (s.ofp.inbox l).length) :
    Keeps s { s with ofp := o } where
  tables := tablesCanonical_congr rfl rfl rfl rfl rfl hattn
  attention h k := by
    have hk : ({ s with ofp := o } : State).attn k = s.attn k := attn_congr hattn k
    rw [hk]
    exact h k
  journal := id
  windows := id
  outQ := hout
  clearTag := hclear
  inbox := hinbox
  pending := rfl

theorem keeps_identifyCompatVerb (args : List Text) (s : State) : Keeps s (identifyCompatVerb args s).1 :=
  keeps_ofp rfl rfl rfl fun l => by cases l <;> exact le_rfl

theorem keeps_params (p : Params) (s : State) : Keeps s { s with params := p } := .of_tables id rfl rfl rfl rfl

theorem keeps_paramSetVerb (args : List Text) (s : State) : Keeps s (paramSetVerb args s).1 := by
  unfold paramSetVerb
  repeat' split
  · exact .refl s
  · exact .refl s
  · exact (keeps_params _ s).trans (.ite (keeps_rsw _ _) (.ite (keeps_ppl rfl) (.refl _)))

theorem keeps_runVerb (args : List Text) (s : State) : Keeps s (runVerb args s).1 := by
  have hrun : Keeps s { s.setRunState .run with ppl := { s.ppl with timer := 0 } } :=
    (keeps_setRunState .run s).trans (keeps_ppl rfl)
  unfold runVerb
  repeat' split
  exacts [.refl s, .refl s, hrun.trans (keeps_startCycle _), .refl s]

theorem keeps_stopVerb (args : List Text) (s : State) : Keeps s (stopVerb args s).1 := by
  unfold stopVerb
  repeat' split
  exacts [.refl s, ((keeps_setRunState _ s).trans (keeps_stopCycle _)).trans (keeps_stoppingEnd _), .refl s]

/-! ## The drain, the settings and the warm reset keep the invariants -/

theorem keeps_drainVisit (s : State) : Keeps s (drainVisit s) := by
  unfold drainVisit
  split
  · exact keeps_bjn rfl rfl
  · next hfree =>
    have hdrop : Keeps s (drainDrop s.bjn.drainCursor s) :=
      .ite (.refl s) ((keeps_writeRecord (Nat.one_le_iff_ne_zero.mpr hfree)).trans (keeps_setDrop _ _ _))
    exact hdrop.trans (keeps_bjn rfl rfl)

theorem keeps_setDrainLeft (n : Option Nat) (s : State) : Keeps s (s.setDrainLeft n) := keeps_bjn rfl rfl

theorem keeps_giveDeferred (r : Reply) (s : State) : Keeps s (giveDeferred r s) :=
  keeps_ofp rfl rfl rfl fun l => by cases l <;> exact le_rfl

theorem keeps_completeSave (s : State) : Keeps s (completeSave s) :=
  ((keeps_giveDeferred _ s).trans (keeps_setSst _ _)).trans (keeps_evaluateIfSet _)

theorem keeps_failSave (ph : SavePhase) (s : State) : Keeps s (failSave ph s) :=
  ((keeps_giveDeferred _ s).trans (keeps_setSst _ _)).trans (keeps_evaluateIfSet _)

theorem keeps_startSave (tag : Byte) (s : State) : Keeps s (startSave tag s) := by
  have htag : Keeps s { s with ofp := { s.ofp with saveTag := some tag } } :=
    keeps_ofp rfl rfl rfl fun l => by cases l <;> exact le_rfl
  exact htag.trans (keeps_setSst _ _)

theorem keeps_eraseAbandoned (s : State) : Keeps s (eraseAbandoned s) := keeps_setSst _ s

theorem keeps_abandonSave (s : State) : Keeps s (abandonSave s) :=
  .ite (((keeps_giveDeferred _ s).trans (keeps_setSst _ _)).trans (keeps_evaluateIfSet _)) (.refl s)

theorem keeps_resetOutages (s : State) : Keeps s (resetOutages s) := by
  have hend : ∀ s, Keeps s (endEpisodes s) := fun s => .foldl (fun s d => keeps_endEpisode d s) _ s
  have hmap : ∀ f s, Keeps s (mapDrops f s) := fun f s => .foldl (fun s d => keeps_setDrop d _ s) _ s
  exact (((keeps_olz _ s).trans (hend _)).trans (hmap _ _)).trans (keeps_olz _ _)

theorem keeps_resetCarrier (s : State) : Keeps s (resetCarrier s) := by
  have hwindows : Keeps s (s.setWindows []) := keeps_setWindows fun _ => ⟨Nat.zero_le _, List.nodup_nil⟩
  have hfloor : Keeps s { s with csc := { s.csc with windows := [], floor := 0 } } := hwindows.trans (keeps_csc rfl)
  exact hfloor.trans (keeps_urx _ _)

theorem keeps_resetPlant (s : State) : Keeps s (resetPlant s) :=
  (Keeps.foldl (fun s u => keeps_setUnit u _ s) _ s).trans (keeps_ppl rfl)

theorem keeps_resetDrops (s : State) : Keeps s (resetDrops s) :=
  .foldl (fun s d => .ite (.refl s) (.ite (keeps_vacate d s) (keeps_setDrop d _ s))) _ s

theorem keeps_resetLineUp (s : State) : Keeps s (resetLineUp s) :=
  (Keeps.foldl (fun s k => keeps_setSlot k _ s) _ s).trans (keeps_setOverride _ _)

theorem keeps_resetMatrix (s : State) : Keeps s (resetMatrix s) :=
  (Keeps.foldl (fun s k => keeps_setSource k _ s) _ s).trans (keeps_mxp _ _)

theorem keeps_resetOffice (s : State) : Keeps s (resetOffice s) :=
  keeps_ofp rfl rfl rfl fun l => by cases l <;> exact Nat.zero_le _

theorem keeps_resolveAfterReset (s : State) : Keeps s (resolveAfterReset s) :=
  (((keeps_resolveAllAfresh s).trans (keeps_rebuildAll _)).trans (keeps_appendWave _ _)).trans (keeps_startHead _)

theorem keeps_settleAttention (s : State) : Keeps s (settleAttention s) :=
  ((keeps_clearAttention s).ite (.refl s)).trans (keeps_draws _ _)

theorem keeps_resetQueue (s : State) : Keeps s (resetQueue s) := keeps_aen _ s

theorem keeps_resetRefresh (s : State) : Keeps s (resetRefresh s) := keeps_rsw _ s

theorem keeps_warmReset (s : State) : Keeps s (warmReset s) := by
  have h1 := (keeps_abandonSave s).trans (keeps_clearAttention _)
  have h2 := ((((h1.trans (keeps_resetOutages _)).trans (keeps_resetCarrier _)).trans (keeps_resetQueue _)).trans
    (keeps_resetPlant _)).trans (keeps_resetDrops _)
  have h3 := ((h2.trans (keeps_resetRefresh _)).trans (keeps_resetLineUp _)).trans (keeps_resetMatrix _)
  have h4 := (h3.trans (keeps_setCarousel .cycle _)).trans (keeps_resolveAfterReset _)
  exact ((h4.trans (keeps_resetOffice _)).trans (keeps_setRunState _ _)).trans (keeps_settleAttention _)

theorem keeps_resetVerb (args : List Text) (s : State) : Keeps s (resetVerb args s).1 := by
  unfold resetVerb
  split
  exacts [keeps_warmReset s, .refl s]

/-- The tables of a load are written afresh, and its journal is that of an image in range (R178). -/
theorem keeps_loadTables {i : SavedImage} {s : State} (hlen : i.journal.length ≤ 4096)
    (hseq : seqFits i.nextSeq i.journal = true) : Keeps s (loadTables i s) where
  tables := fun ⟨_, _, _, _, h5, h6, _, _, _, h10⟩ => ⟨wf_ofList _ _, wf_ofList _ _, wf_ofList _ _, wf_ofList _ _, h5, h6,
    wf_ofList _ _, wf_ofList _ _, wf_ofList _ _, h10⟩
  attention := id
  journal _ := ⟨hlen, hseq⟩
  windows := id
  outQ := rfl
  clearTag := rfl
  inbox _ := le_rfl
  pending := rfl

theorem imageFits_journal {i : SavedImage} (h : imageFits i = true) :
    i.journal.length ≤ 4096 ∧ seqFits i.nextSeq i.journal = true := by
  simp only [imageFits, Bool.and_eq_true, decide_eq_true_eq] at h
  obtain ⟨⟨⟨⟨⟨_, hlen⟩, _⟩, hseq⟩, _⟩, _⟩ := h
  exact ⟨hlen, hseq⟩

/-- An image that is loaded is in range (R178). -/
theorem imageFits_of_judgeLoad {h : FlashHeld} {r : FlashRead} {g : Nat} {i : SavedImage}
    (hj : (judgeLoad h r).2 = some (g, i)) : imageFits i = true := by
  have hi : (judgeImage r).2 = some (g, i) := by
    cases h with
    | asAttached | image => exact hj
    | torn | erased => cases hj
  unfold judgeImage at hi
  dsimp only at hi
  split at hi
  · cases hi
  · split at hi
    · split at hi
      · next x hx =>
        cases hi
        exact (Option.filter_eq_some_iff.mp hx).2
      · cases hi
    · cases hi

theorem keeps_enterStandby (s : State) : Keeps s (enterStandby s) := by
  have hdrain : ∀ s, Keeps s (startDrain s) := fun s => .ite (keeps_bjn rfl rfl) (.refl s)
  exact (keeps_resolveAfterReset s).trans (hdrain _)

theorem keeps_loadEnd (r : FlashRead) (s : State) : Keeps s (loadEnd r s) := by
  have hload : Keeps s (loadTables (((judgeLoad s.sst.held r).2.map Prod.snd).getD blankImage) s) := by
    cases hj : (judgeLoad s.sst.held r).2 with
    | none => exact keeps_loadTables (Nat.zero_le _) rfl
    | some x =>
      obtain ⟨hlen, hseq⟩ := imageFits_journal (imageFits_of_judgeLoad hj)
      exact keeps_loadTables hlen hseq
  exact (hload.trans (keeps_setSst _ _)).trans (keeps_enterStandby _)

end Sys2Proof.Proofs

namespace Sys2Proof.Proofs

open Sys2Proof Sys2Proof.Machine Sys2Proof.Laws

/-! ## A whole command -/

/-- What every command keeps from the state before it to the state after it. -/
structure CommandKeeps (s t : State) : Prop where
  tables : TablesCanonical s → TablesCanonical t
  attention : AttentionSound s → AttentionSound t
  journal : JournalSound s → JournalSound t
  windows : WindowsSound s → WindowsSound t
  office : OfficeBounded s → OfficeBounded t
  marks : MarksCurrent s → MarksCurrent t
  pending : t.pending = s.pending

/-- The command completes and keeps what every command keeps. -/
def Completes (o : Outcome) (s : State) : Prop := ∃ t, o = .next t ∧ CommandKeeps s t

namespace Keeps

/-- An effect that leaves the marks current is a command of its own. -/
theorem command {s t : State} (h : Keeps s t) (hm : MarksCurrent s → MarksCurrent t) : CommandKeeps s t where
  tables := h.tables
  attention := h.attention
  journal := h.journal
  windows := h.windows
  office := fun ⟨hout, hinbox⟩ => ⟨by rw [h.outQ, h.clearTag]; exact hout, fun l => (h.inbox l).trans (hinbox l)⟩
  marks := hm
  pending := h.pending

theorem completes {s t : State} (h : Keeps s t) (hm : MarksCurrent s → MarksCurrent t) : Completes (.next t) s :=
  ⟨t, rfl, h.command hm⟩

/-- An effect with the owners' report behind it (R42). -/
theorem done {s t : State} (h : Keeps s t) : Completes (Machine.done t) s :=
  completes (h.trans (.of_tables id rfl rfl rfl rfl)) fun _ => rfl

end Keeps

theorem completes_refl (s : State) : Completes (.next s) s := (Keeps.refl s).completes id

/-- A step that comes about under a condition (log 2). -/
theorem completes_ite {c : Prop} [Decidable c] {s : State} {o : Outcome} (h : Completes o s) :
    Completes (if c then o else .next s) s := by
  split
  · exact h
  · exact completes_refl s

/-! ## What the readiness marks are read from -/

theorem eligibleEntry_congr {s t : State} (hcrs : t.crs = s.crs) (htime : t.tmb.timeSet = s.tmb.timeSet) :
    t.eligibleEntry = s.eligibleEntry := by
  funext e
  simp only [State.eligibleEntry, State.entryEnabled, hcrs, htime]

theorem nextEntry_congr {s t : State} (hcrs : t.crs = s.crs) (htime : t.tmb.timeSet = s.tmb.timeSet) :
    t.nextEntry = s.nextEntry := by
  simp only [State.nextEntry, eligibleEntry_congr hcrs htime, hcrs]

theorem refreshable_congr {s t : State} (hdtb : t.dtb = s.dtb) : t.refreshable = s.refreshable := by
  funext d
  simp only [State.refreshable, drop_congr hdtb]

theorem candidate_congr {s t : State} (hdtb : t.dtb = s.dtb) (hrsw : t.rsw = s.rsw) : t.candidate = s.candidate := by
  simp only [State.candidate, State.dropKeys, refreshable_congr hdtb, hdtb, hrsw]

theorem offered_congr {s t : State} (hqueue : t.aen.queue = s.aen.queue) (hdtb : t.dtb = s.dtb) (hppl : t.ppl = s.ppl)
    (hrsw : t.rsw = s.rsw) (x : Sender) : t.offered x = s.offered x := by
  cases x <;> simp only [State.offered, drop_congr hdtb, candidate_congr hdtb hrsw, hqueue, hppl, hrsw]

theorem owedMarks_congr {s t : State} (hlur : t.lur = s.lur) (hcrs : t.crs = s.crs)
    (htime : t.tmb.timeSet = s.tmb.timeSet) (hqueue : t.aen.queue = s.aen.queue) (hdtb : t.dtb = s.dtb)
    (hppl : t.ppl = s.ppl) (hrsw : t.rsw = s.rsw) : t.owedMarks = s.owedMarks := by
  simp only [State.owedMarks, nextEntry_congr hcrs htime, offered_congr hqueue hdtb hppl hrsw, hlur]

/-! ## The Office Port -/

theorem keeps_popLine (l : Lane) (s : State) : Keeps s (popLine l s) :=
  keeps_ofp (by cases l <;> rfl) (by cases l <;> rfl) (by cases l <;> rfl) fun k =>
    (congrArg List.length (popLine_inbox s l k)).trans_le (by split <;> simp)

/-- A line is dispatched only when a place for its reply is free (R166, R167). -/
theorem freePlaces_of_headLine {s : State} {l : Lane} {ln : Line} (h : s.headLine l = some ln) : 1 ≤ s.freePlaces := by
  unfold State.headLine at h
  split at h
  · next hplace =>
    simp only [State.placeGiven, Bool.and_eq_true, decide_eq_true_eq] at hplace
    exact Nat.one_le_of_lt hplace.2
  · cases h

theorem freePlaces_of_dispatching {s : State} {l : Lane} {v : Verb} {x : Byte × List Text}
    (h : s.dispatching l v = some x) : 1 ≤ s.freePlaces := by
  obtain ⟨ln, hln, _⟩ := Option.bind_eq_some_iff.mp h
  exact freePlaces_of_headLine hln

/-- A line is appended in a place that was free before an effect that keeps the queue. -/
theorem commandKeeps_emit {s u : State} (o : OutLine) (hfree : 1 ≤ s.freePlaces) (h : Keeps s u)
    (hm : MarksCurrent s → MarksCurrent u) : CommandKeeps s (emit o u) where
  tables := h.tables
  attention := h.attention
  journal := h.journal
  windows := h.windows
  office := fun ⟨_, hinbox⟩ => by
    refine ⟨?_, fun l => ?_⟩
    · unfold State.freePlaces at hfree
      simp only [emit, List.length_append, List.length_cons, List.length_nil, h.outQ, h.clearTag]
      omega
    · rw [emit_inbox]
      exact (h.inbox l).trans (hinbox l)
  marks := hm
  pending := h.pending

theorem commandKeeps_report {s t : State} (h : CommandKeeps s t) : CommandKeeps s t.report :=
  ⟨h.tables, h.attention, h.journal, h.windows, h.office, fun _ => rfl, h.pending⟩

/-- A reply takes the place that was free before the line left its inbox. -/
theorem completes_reply {s u : State} {l : Lane} (o : OutLine) (hfree : 1 ≤ s.freePlaces) (h : Keeps (popLine l s) u) :
    Completes (done (emit o u)) s := by
  have hu : Keeps s u.report := ((keeps_popLine l s).trans h).trans (.of_tables id rfl rfl rfl rfl)
  have hemit : CommandKeeps s (emit o u.report) := commandKeeps_emit o hfree hu fun _ => rfl
  exact ⟨_, rfl, hemit⟩

theorem completes_dispatch {v : Verb} {l : Lane} {act : List Text → State → State × Reply} {s : State}
    (hact : ∀ args u, Keeps u (act args u).1) : Completes (dispatch v l act s) s := by
  unfold dispatch
  split
  · exact completes_refl s
  · next tag args hdisp =>
    have hu : Keeps (popLine l s)
        (if v.carriedOn l then act args (popLine l s) else (popLine l s, Reply.err .lane)).1 := by
      split
      · exact hact args _
      · exact .refl _
    exact completes_reply _ (freePlaces_of_dispatching hdisp) hu

theorem completes_answer {v : Verb} {l : Lane} {read : List Text → State → Reply} {s : State} :
    Completes (answer v l read s) s := by
  unfold answer
  split
  · exact completes_refl s
  · next tag args hdisp =>
    exact ⟨_, rfl, commandKeeps_emit _ (freePlaces_of_dispatching hdisp) (keeps_popLine l s) id⟩

theorem completes_dispatchDeferred {v : Verb} {l : Lane} {refusal : List Text → State → Option Reason}
    {start : Byte → State → State} {s : State}
    (hstart : ∀ tag, 1 ≤ s.freePlaces → CommandKeeps s (start tag (popLine l s)).report) :
    Completes (dispatchDeferred v l refusal start s) s := by
  unfold dispatchDeferred
  split
  · exact completes_refl s
  · next tag args hdisp =>
    dsimp only
    split
    · exact completes_reply _ (freePlaces_of_dispatching hdisp) (.refl _)
    · exact ⟨_, rfl, hstart tag (freePlaces_of_dispatching hdisp)⟩

theorem commandKeeps_startSave {l : Lane} (tag : Byte) (s : State) :
    CommandKeeps s (startSave tag (popLine l s)).report :=
  commandKeeps_report (((keeps_popLine l s).trans (keeps_startSave tag _)).command id)

/-- The place that was free for the dispatch is the one reserved for the clear's reply (R167). -/
theorem commandKeeps_startClear {l : Lane} (tag : Byte) {s : State} (hfree : 1 ≤ s.freePlaces) :
    CommandKeeps s (startClear tag (popLine l s)).report where
  tables := (keeps_popLine l s).tables
  attention := (keeps_popLine l s).attention
  journal := id
  windows := id
  office := fun ⟨_, hinbox⟩ => by
    refine ⟨?_, fun k => ((keeps_popLine l s).inbox k).trans (hinbox k)⟩
    have hout : (startClear tag (popLine l s)).report.ofp.outQ = s.ofp.outQ := popLine_outQ s l
    have hclear : (startClear tag (popLine l s)).report.ofp.clearTag = some tag := rfl
    unfold State.freePlaces at hfree
    simp only [hout, hclear, Option.isSome_some, if_true]
    omega
  marks _ := rfl
  pending := rfl

/-- The reply of a SETTINGS.CLEAR takes the place reserved for it (R167, R181). -/
theorem completes_endClear (r : Reply) (s : State) : Completes (done (endClear r s)) s := by
  have hsst := fun x => keeps_setSst x s
  unfold endClear
  dsimp only
  split
  · exact (hsst _).done
  · next tag htag =>
    have hclear : s.ofp.clearTag = some tag := htag
    refine ⟨_, rfl, ⟨id, id, id, id, fun ⟨hout, hinbox⟩ => ⟨?_, fun l => ?_⟩, fun _ => rfl, rfl⟩⟩
    · rw [hclear] at hout
      simpa [emit, State.setSst] using hout
    · exact (congrArg List.length (emit_inbox _ _ l)).trans_le (hinbox l)

/-- A reply given at arrival takes a free place, or LINK attention comes instead (R165). -/
theorem commandKeeps_replyAtArrival (l : Lane) (tag : Byte) (r : Reason) (s : State) :
    CommandKeeps s (replyAtArrival l tag r s) := by
  unfold replyAtArrival
  split
  · next hfree => exact commandKeeps_emit _ hfree (.refl s) id
  · exact (keeps_raise .link s).command id

/-- A line is put into an inbox that holds fewer than four (R165). -/
theorem commandKeeps_queueLine {l : Lane} {ln : Line} {s : State} (hroom : (s.ofp.inbox l).length < 4) :
    CommandKeeps s { s with ofp := s.ofp.setInbox l (s.ofp.inbox l ++ [ln]) } where
  tables := tablesCanonical_congr rfl rfl rfl rfl rfl (by cases l <;> rfl)
  attention h k := by
    have hk : ({ s with ofp := s.ofp.setInbox l (s.ofp.inbox l ++ [ln]) } : State).attn k = s.attn k :=
      attn_congr (by cases l <;> rfl) k
    rw [hk]
    exact h k
  journal := id
  windows := id
  office := fun ⟨hout, hinbox⟩ => by
    obtain ⟨hq, _, _, hc, _⟩ := setInbox_keeps l (s.ofp.inbox l ++ [ln]) s.ofp
    refine ⟨by simpa only [hq, hc] using hout, fun k => ?_⟩
    simp only [inbox_setInbox]
    split
    · simp
      omega
    · exact hinbox k
  marks := id
  pending := rfl

theorem commandKeeps_judgeLine (l : Lane) (tag : Byte) (line : Text) (s : State) :
    CommandKeeps s (judgeLine l tag line s) := by
  unfold judgeLine
  split
  · exact commandKeeps_replyAtArrival ..
  · split
    · exact commandKeeps_replyAtArrival ..
    · split
      · exact commandKeeps_replyAtArrival ..
      · next hroom => exact commandKeeps_queueLine (Nat.lt_of_not_le hroom)

theorem tablesCanonical_mapAttn {f : Attn → Attn} (ks : List Kind) {s : State} (h : TablesCanonical s) :
    TablesCanonical (s.mapAttn f ks) := by
  unfold State.mapAttn
  induction ks generalizing s with
  | nil => exact h
  | cons k ks ih =>
    obtain ⟨h1, h2, h3, h4, h5, h6, h7, h8, h9, h10⟩ := h
    exact ih ⟨h1, h2, h3, h4, h5, h6, h7, h8, h9, wf_set _ _ h10⟩

/-- The kinds of a notice are those that are due, and every one of them is announced (R169). -/
theorem attentionSound_noticed {s : State} (h : AttentionSound s) :
    AttentionSound (s.mapAttn Attn.noticed s.announceSet) := fun k => by
  rw [attn_mapAttn (f := Attn.noticed) (fun _ => rfl)]
  split
  · next hk =>
    have hdue : (s.attn k).due = true := (List.mem_filter.mp hk).2
    exact Attn.Sound.noticed (h k) hdue
  · exact h k

theorem keeps_noticed (s : State) : Keeps s (s.mapAttn Attn.noticed s.announceSet) := by
  have honly := mapAttn_only Attn.noticed s.announceSet s
  have hoffice : ∀ o : Ofp, { o with attn := [] } = { s.ofp with attn := [] } → o.outQ = s.ofp.outQ
      ∧ o.clearTag = s.ofp.clearTag ∧ ∀ l, (o.inbox l).length ≤ (s.ofp.inbox l).length := fun o ho => by
    injection ho with hp hm hq hout hheld hsave hclear
    exact ⟨hout, hclear, fun l => by cases l <;> simp [Ofp.inbox, hp, hm, hq]⟩
  obtain ⟨hout, hclear, hinbox⟩ := hoffice _ (honly .office (by simp))
  have hbjn : (s.mapAttn Attn.noticed s.announceSet).bjn = s.bjn := honly .bjn (by simp)
  have hcsc := congrArg Csc.windows (honly .csc (by simp))
  exact ⟨tablesCanonical_mapAttn _, attentionSound_noticed, fun h => by rw [JournalSound, hbjn]; exact h,
    fun h => by rw [WindowsSound]; exact hcsc ▸ h, hout, hclear, hinbox, honly .pending (by simp)⟩

theorem completes_noticeAppend (s : State) : Completes (execNoticeAppend s) s := by
  unfold execNoticeAppend
  split
  · next hplaced =>
    have hfree : 1 ≤ s.freePlaces := of_decide_eq_true (Bool.and_eq_true_iff.mp hplaced).2
    have honly := mapAttn_only Attn.noticed s.announceSet s
    have howed : (s.mapAttn Attn.noticed s.announceSet).owedMarks = s.owedMarks :=
      owedMarks_congr (honly .lur (by simp)) (honly .crs (by simp)) (congrArg Tmb.timeSet (honly .tmb (by simp)))
        (honly .queue (by simp)) (honly .dtb (by simp)) (honly .ppl (by simp)) (honly .rsw (by simp))
    exact ⟨_, rfl, commandKeeps_emit _ hfree (keeps_noticed s) fun h =>
      Eq.trans (honly .marks (by simp)) (h.trans howed.symm)⟩
  · exact completes_refl s

theorem completes_unknownVerb (l : Lane) (s : State) : Completes (execUnknownVerb l s) s := by
  unfold execUnknownVerb
  split
  · exact completes_refl s
  · next ln hln =>
    exact completes_ite ⟨_, rfl, commandKeeps_emit _ (freePlaces_of_headLine hln) (keeps_popLine l s) id⟩

theorem completes_deferredReplyAppend (s : State) : Completes (execDeferredReplyAppend s) s := by
  unfold execDeferredReplyAppend
  split
  · exact completes_refl s
  · next o _ =>
    split
    case isFalse => exact completes_refl s
    case isTrue hfree =>
    have hemit := commandKeeps_emit o hfree (.refl s) id
    refine ⟨_, rfl, ⟨hemit.tables, hemit.attention, id, id, fun h => ?_, id, rfl⟩⟩
    obtain ⟨hout, hinbox⟩ := hemit.office h
    exact ⟨hout, fun l => by cases l; exacts [hinbox .q, hinbox .p, hinbox .m]⟩

theorem completes_lineSent (s : State) : Completes (execLineSent s) s := by
  refine ⟨_, rfl, ⟨id, id, id, id, fun ⟨hout, hinbox⟩ => ⟨?_, fun l => by cases l; exacts [hinbox .q, hinbox .p, hinbox .m]⟩, id, rfl⟩⟩
  simp only [List.length_tail]
  omega

theorem completes_lineReceived {chars : List Byte} {framing : Bool} (h : chars.contains lineFeed = false) (s : State) :
    Completes (execLineReceived chars framing s) s := by
  have he := exec_lineReceived (framing := framing) h s
  refine ⟨_, he, ?_⟩
  cases receivedLine chars framing with
  | none => exact (keeps_raise .link s).command id
  | some x => exact commandKeeps_judgeLine ..

/-! ## The Time Base's own commands -/

/-- A sample leaves whether time is SET as it was (R157). -/
theorem timeSet_monitorSample (s : State) :
    (takeSample (referenceReturn (closeWindow s))).tmb.timeSet = s.tmb.timeSet := by
  have hclose : (closeWindow s).tmb.timeSet = s.tmb.timeSet := by
    unfold closeWindow
    split <;> rfl
  have hreturn : ∀ u, (referenceReturn u).tmb.timeSet = u.tmb.timeSet := fun u => by
    unfold referenceReturn
    split <;> rfl
  have htake : ∀ u, (takeSample u).tmb.timeSet = u.tmb.timeSet := fun u => by
    unfold takeSample sampleReference
    repeat' split
    all_goals rfl
  rw [htake, hreturn, hclose]

theorem closeWindow_only (s : State) : OnlyChanges [.tmb, .attn] s (closeWindow s) :=
  ((setTmb_only _ s).mono (by simp)).ite (.refl _ s)

theorem referenceReturn_only (s : State) : OnlyChanges [.tmb, .attn] s (referenceReturn s) :=
  (((setTmb_only _ s).mono (by simp)).trans ((raise_only _ _).mono (by simp))).ite (.refl _ s)

theorem takeSample_only (s : State) : OnlyChanges [.tmb, .attn] s (takeSample s) := by
  unfold takeSample
  split
  · exact ((setTmb_only _ s).mono (by simp)).ite
      (((setTmb_only _ s).mono (by simp)).trans ((raise_only _ _).mono (by simp)))
  · exact (setTmb_only _ s).mono (by simp)

/-- A change of the Time Base that leaves whether time is SET leaves the marks current. -/
theorem marksCurrent_of_tmb {s t : State} (h : OnlyChanges [.tmb, .attn] s t)
    (htime : t.tmb.timeSet = s.tmb.timeSet) (hs : MarksCurrent s) : MarksCurrent t :=
  Eq.trans (h .marks (by simp)) (hs.trans (owedMarks_congr (h .lur (by simp)) (h .crs (by simp)) htime (h .queue (by simp))
    (h .dtb (by simp)) (h .ppl (by simp)) (h .rsw (by simp))).symm)

theorem completes_monitorSample (s : State) : Completes (execMonitorSample s) s :=
  (((keeps_closeWindow s).trans (keeps_referenceReturn _)).trans (keeps_takeSample _)).completes
    (marksCurrent_of_tmb (((closeWindow_only s).trans (referenceReturn_only _)).trans (takeSample_only _))
      (timeSet_monitorSample s))

theorem completes_referenceReturn (s : State) : Completes (execReferenceReturn s) s :=
  (keeps_referenceReturn s).completes (marksCurrent_of_tmb (referenceReturn_only s)
    (by unfold referenceReturn; split <;> rfl))

theorem completes_closeWindow (s : State) : Completes (execStartupWindowClose s) s :=
  (keeps_closeWindow s).completes (marksCurrent_of_tmb (closeWindow_only s) (by unfold closeWindow; split <;> rfl))

/-! ## Every command -/

theorem completes_powerOn (s : State) : Completes (execPowerOn s) s := by
  refine ⟨_, rfl, ⟨fun _ => ?_, fun _ k => ?_, fun _ => ?_, fun _ => ?_, fun _ => ?_, fun _ => ?_, rfl⟩⟩
  · exact ⟨wf_nil _, wf_nil _, wf_nil _, wf_nil _, wf_nil _, wf_nil _, wf_nil _, wf_nil _, wf_nil _, wf_nil _⟩
  · exact ⟨nofun, nofun⟩
  · exact ⟨Nat.zero_le _, rfl⟩
  · exact ⟨Nat.zero_le _, List.nodup_nil⟩
  · exact ⟨Nat.zero_le _, fun l => by cases l <;> exact Nat.zero_le _⟩
  · rfl

theorem completes_activityReadAnswer {counts : List Byte} (h : counts.length = 48) (s : State) :
    Completes (execActivityReadAnswer counts s) s := by
  unfold execActivityReadAnswer
  rw [if_neg (not_not.mpr h)]
  split
  · exact ((keeps_endFlight s).trans (keeps_judgeSample counts _)).done
  · exact completes_refl s
  · exact completes_refl s

theorem completes_activityReadTimeout (s : State) : Completes (execActivityReadTimeout s) s := by
  unfold execActivityReadTimeout
  split
  · exact ((keeps_endFlight s).trans (keeps_raise ..)).done
  · exact completes_refl s
  · exact completes_refl s

theorem completes_switchAnswered (s : State) : Completes (execSwitchAnswered s) s := by
  unfold execSwitchAnswered
  split
  · exact ((keeps_setCarried _ _ _ s).trans (keeps_endFlight _)).done
  · exact completes_refl s
  · exact completes_refl s

theorem completes_switchTimeout (s : State) : Completes (execSwitchTimeout s) s := by
  unfold execSwitchTimeout
  split
  · split
    · exact (keeps_mxp _ s).done
    · exact (((keeps_setCarried _ _ _ s).trans (keeps_endFlight _)).trans (keeps_raise ..)).done
  · exact completes_refl s
  · exact completes_refl s

theorem completes_upstreamFrame (bytes : List Byte) (s : State) : Completes (execUpstreamFrame bytes s) s := by
  unfold execUpstreamFrame
  split
  · exact completes_refl s
  · split
    · exact completes_refl s
    · exact (keeps_judgeFrame _ s).done

theorem completes_saveOperationEnd (more : Bool) (s : State) : Completes (execSaveOperationEnd more s) s := by
  unfold execSaveOperationEnd
  split
  · split
    · exact (keeps_eraseAbandoned s).done
    · split
      · exact (keeps_setSst _ s).done
      · exact (keeps_completeSave s).done
  · exact completes_refl s
  · exact completes_refl s

theorem completes_saveOperationTimeout (s : State) : Completes (execSaveOperationTimeout s) s := by
  unfold execSaveOperationTimeout
  split
  · exact ((keeps_eraseAbandoned s).ite (keeps_failSave _ s)).done
  · exact completes_refl s
  · exact completes_refl s

theorem completes_loadEnd {r : FlashRead} (h : r.wellFormed = true) (s : State) : Completes (execLoadEnd r s) s := by
  unfold execLoadEnd
  simp only [h, Bool.not_true, Bool.false_eq_true, if_false]
  exact completes_ite (keeps_loadEnd r s).done

theorem completes_identify (l : Lane) (s : State) : Completes (execIdentify l s) s := by
  unfold execIdentify
  split
  · exact completes_refl s
  · exact completes_answer

theorem completes_refreshCounterExpiry (s : State) : Completes (execRefreshCounterExpiry s) s :=
  completes_ite ((keeps_refreshCount s).trans (keeps_rsw _ _)).done

/-- Every command of the table completes, and keeps what every command keeps. -/
theorem exec_completes (c : Instr) (s : State) (hc : c.wellFormed = true) : Completes (exec c s) s := by
  cases c with
  | powerOn => exact completes_powerOn s
  | loadEnd r => exact completes_loadEnd hc s
  | lineReceived chars framing => exact completes_lineReceived (by simpa [Instr.wellFormed] using hc) s
  | lineOverflow => exact (keeps_raise .link s).completes id
  | lineSent => exact completes_lineSent s
  | deferredReplyAppend => exact completes_deferredReplyAppend s
  | noticeAppend => exact completes_noticeAppend s
  | unknownVerb l => exact completes_unknownVerb l s
  | slotSet l => exact completes_dispatch keeps_slotSetVerb
  | slotRestore l => exact completes_dispatch keeps_slotRestoreVerb
  | eventAdd l => exact completes_dispatch keeps_eventAddVerb
  | eventCancel l => exact completes_dispatch keeps_eventCancelVerb
  | eventDelete l => exact completes_dispatch keeps_eventDeleteVerb
  | emergencyOn l => exact completes_dispatch keeps_emergencyOnVerb
  | emergencyOff l => exact completes_dispatch keeps_emergencyOffVerb
  | carouselMode l => exact completes_dispatch keeps_carouselModeVerb
  | carouselText l => exact completes_dispatch keeps_carouselTextVerb
  | carouselEnable l => exact completes_dispatch keeps_carouselEnableVerb
  | sourceSet l => exact completes_dispatch keeps_sourceSetVerb
  | strayRearm l => exact completes_dispatch keeps_strayRearmVerb
  | protectSet l => exact completes_dispatch (keeps_guardVerb true)
  | protectClear l => exact completes_dispatch (keeps_guardVerb false)
  | dropConnect l => exact completes_dispatch keeps_dropConnectVerb
  | dropTiers l => exact completes_dispatch keeps_dropTiersVerb
  | dropSuspend l => exact completes_dispatch keeps_dropSuspend
  | dropResume l => exact completes_dispatch keeps_dropResume
  | dropDisconnect l => exact completes_dispatch keeps_dropDisconnect
  | dropReassign l => exact completes_dispatch keeps_dropReassignVerb
  | dropSend l => exact completes_dispatch keeps_dropSend
  | intakeMode l => exact completes_dispatch keeps_intakeModeVerb
  | unitSet l => exact completes_dispatch keeps_unitSetVerb
  | unitService l => exact completes_dispatch keeps_unitServiceVerb
  | outageDeclare l => exact completes_dispatch keeps_outageDeclareVerb
  | outageEnd l => exact completes_dispatch keeps_outageEndVerb
  | journalRelease l => exact completes_dispatch keeps_journalReleaseVerb
  | periodClose l => exact completes_dispatch keeps_periodCloseVerb
  | timeSet l => exact completes_dispatch keeps_timeSetVerb
  | attnClear l => exact completes_dispatch keeps_attnClearVerb
  | attnMask l => exact completes_dispatch keeps_attnMaskVerb
  | attnForce l => exact completes_dispatch keeps_attnForceVerb
  | paramSet l => exact completes_dispatch keeps_paramSetVerb
  | run l => exact completes_dispatch keeps_runVerb
  | stop l => exact completes_dispatch keeps_stopVerb
  | reset l => exact completes_dispatch keeps_resetVerb
  | identify l => exact completes_identify l s
  | identifyCompat l => exact completes_ite (completes_dispatch keeps_identifyCompatVerb)
  | settingsSave l => exact completes_dispatchDeferred fun tag _ => commandKeeps_startSave tag s
  | settingsClear l => exact completes_dispatchDeferred fun tag hfree => commandKeeps_startClear tag hfree
  | slotRead l | eventRead l | eventList l | carouselRead l | sourceRead l | sourceList l | matrixStatus l | strayRead l
  | carrierStatus l | protectRead l | dropRead l | dropList l | authStatus l | refreshStatus l | intakeStatus l
  | unitRead l | unitList l | pollStatus l | outageRead l | outageList l | journalRead l | journalStatus l
  | timeStatus l | attnRead l | status l | paramRead l | settingsStatus l => exact completes_answer
  | saveOperationEnd more => exact completes_saveOperationEnd more s
  | saveOperationTimeout => exact completes_saveOperationTimeout s
  | abandonEraseEnd => exact completes_ite (keeps_setSst _ s).done
  | clearEraseEnd => exact completes_ite (completes_endClear _ s)
  | clearEraseTimeout => exact completes_ite (completes_endClear _ s)
  | slotBoundary => exact ((keeps_settleBoundary s).trans (keeps_slotBoundary _)).done
  | secondAdvance => exact completes_ite (keeps_secondAdvance s).done
  | refreshCounterExpiry => exact completes_refreshCounterExpiry s
  | emergencyExpiry => exact (keeps_takeExpiry s).done
  | alertDue => exact (keeps_takeAlert s).done
  | pollCycleExpiry => exact (keeps_takeCycleExpiry s).done
  | pollBegin => exact completes_ite (keeps_beginPoll s).done
  | pollCycleEnd => exact completes_ite (keeps_endCycle s).done
  | monitorSample => exact completes_monitorSample s
  | referenceReturn => exact completes_referenceReturn s
  | startupWindowClose => exact completes_closeWindow s
  | upstreamFrame bytes => exact completes_upstreamFrame bytes s
  | sampleDue => exact completes_ite (keeps_mxp _ s).done
  | matrixIssue => exact completes_ite (keeps_issueNext s).done
  | activityReadAnswer counts => exact completes_activityReadAnswer (by simpa [Instr.wellFormed] using hc) s
  | activityReadTimeout => exact completes_activityReadTimeout s
  | switchAnswered => exact completes_switchAnswered s
  | switchTimeout => exact completes_switchTimeout s
  | lateMatrixAnswer => exact completes_refl s
  | waveVisit => exact completes_ite (keeps_waveVisit s).done
  | waveComplete => exact completes_ite (keeps_waveComplete s).done
  | settlePassStart => exact completes_ite (keeps_startPass s).done
  | settleVisit => exact completes_ite (keeps_settleVisit s).done
  | settlePassEnd => exact completes_ite (keeps_endPass s).done
  | drainVisit => exact completes_ite (keeps_drainVisit s).done
  | drainCircuitEnd => exact completes_ite (keeps_setDrainLeft none s).done
  | referenceEdge => exact (keeps_setTmb _ s).completes id

/-- A term that is no command of the table is refused by name (log 31). -/
theorem exec_of_illFormed (c : Instr) (s : State) (hc : c.wellFormed = false) : exec c s = .refused .illFormed := by
  cases c with
  | loadEnd r =>
    have hr : r.wellFormed = false := hc
    simp [exec, execLoadEnd, hr]
  | lineReceived chars framing =>
    have hlf : chars.contains lineFeed = true := by simpa [Instr.wellFormed] using hc
    simp only [exec, execLineReceived, hlf, if_true]
  | activityReadAnswer counts =>
    have hlen : counts.length ≠ 48 := by simpa [Instr.wellFormed] using hc
    simp only [exec, execActivityReadAnswer, if_pos hlen]
  | _ => exact absurd hc (by simp [Instr.wellFormed])

/-- A step keeps what its command keeps, from the state with the queue's rest. -/
theorem commandKeeps_of_step {s t : State} (h : step s = .next t) :
    ∃ rest, CommandKeeps { s with pending := rest } t := by
  unfold step at h
  split at h
  · cases h
    exact ⟨s.pending, (Keeps.refl s).command id⟩
  · next c rest _ =>
    refine ⟨rest, ?_⟩
    cases hc : c.wellFormed with
    | false => rw [exec_of_illFormed c _ hc] at h; cases h
    | true =>
      obtain ⟨u, hu, hkeeps⟩ := exec_completes c { s with pending := rest } hc
      rw [h] at hu
      cases hu
      exact hkeeps

/-! ## The statements -/

/-- Settles O7: every command ends with the owners' report, or leaves what the marks are read from. -/
theorem everyStepKeepsMarks : Obligations.EveryStepKeepsMarks := by
  intro s t hs hstep
  obtain ⟨_, h⟩ := commandKeeps_of_step hstep
  exact h.marks hs

/-- Settles O8: every write of a table is a `Table.set`, and a load makes its tables by such writes. -/
theorem everyStepKeepsTables : Obligations.EveryStepKeepsTables := by
  intro s t hs hstep
  obtain ⟨_, h⟩ := commandKeeps_of_step hstep
  exact h.tables hs

/-- Settles O9: windows close, and one opens only where `mayOpen` allows it. -/
theorem everyStepKeepsWindows : Obligations.EveryStepKeepsWindows := by
  intro s t hs hstep
  obtain ⟨_, h⟩ := commandKeeps_of_step hstep
  exact h.windows hs

/-- Settles O10: a raise, a clear, a mask and a notice each keep a kind's flags consistent. -/
theorem everyStepKeepsAttention : Obligations.EveryStepKeepsAttention := by
  intro s t hs hstep
  obtain ⟨_, h⟩ := commandKeeps_of_step hstep
  exact h.attention hs

/-- Settles O11: a line is appended only in a free place, and a line received only to an inbox with room. -/
theorem everyStepKeepsOfficeBounds : Obligations.EveryStepKeepsOfficeBounds := by
  intro s t hs hstep
  obtain ⟨_, h⟩ := commandKeeps_of_step hstep
  exact h.office hs

/-- Settles O12: a record is appended only while one is free, and takes the next number. -/
theorem everyStepKeepsJournal : Obligations.EveryStepKeepsJournal := by
  intro s t hs hstep
  obtain ⟨_, h⟩ := commandKeeps_of_step hstep
  exact h.journal hs

/-- Settles O3: `exec_completes` for the commands of the table, `exec_of_illFormed` for the other terms. -/
theorem everyCommandCompletes : Obligations.EveryCommandCompletes := by
  intro c s
  refine ⟨fun hc => ?_, exec_of_illFormed c s⟩
  obtain ⟨t, ht, hkeeps⟩ := exec_completes c s hc
  exact ⟨t, ht, hkeeps.pending⟩

end Sys2Proof.Proofs

namespace Sys2Proof.Proofs

open Sys2Proof Sys2Proof.Machine Sys2Proof.Laws

/-! ## A refused verb (O5) -/

/-- What a verb's owner answers, when it is ERR, comes with the state as it was. -/
def RefusalKeeps (s : State) (x : State × Reply) : Prop := ∀ why, x.2 = .err why → x.1 = s

@[simp] theorem refusalKeeps_refuse (r : Reason) (s : State) : RefusalKeeps s (refuse r s) := fun _ _ => rfl

@[simp] theorem refusalKeeps_ok (s u : State) (fs : List Field) : RefusalKeeps s (u, .ok fs) := fun _ h => nomatch h

@[simp] theorem refusalKeeps_accept (s u : State) : RefusalKeeps s (accept u) := refusalKeeps_ok s u []

@[simp] theorem refusalKeeps_serviceReply (s : State) (d : Nat) (u : State) : RefusalKeeps s (serviceReply d u) :=
  refusalKeeps_ok s u _

theorem refusalKeeps_slotSetVerb (args : List Text) (s : State) : RefusalKeeps s (slotSetVerb args s) := by
  unfold slotSetVerb
  repeat' split
  all_goals simp

theorem refusalKeeps_slotRestoreVerb (args : List Text) (s : State) : RefusalKeeps s (slotRestoreVerb args s) := by
  unfold slotRestoreVerb
  repeat' split
  all_goals simp

theorem refusalKeeps_eventAddVerb (args : List Text) (s : State) : RefusalKeeps s (eventAddVerb args s) := by
  unfold eventAddVerb
  repeat' split
  all_goals simp

theorem refusalKeeps_eventCancelVerb (args : List Text) (s : State) : RefusalKeeps s (eventCancelVerb args s) := by
  unfold eventCancelVerb
  repeat' split
  all_goals simp

theorem refusalKeeps_eventDeleteVerb (args : List Text) (s : State) : RefusalKeeps s (eventDeleteVerb args s) := by
  unfold eventDeleteVerb
  repeat' split
  all_goals simp

theorem refusalKeeps_emergencyOnVerb (args : List Text) (s : State) : RefusalKeeps s (emergencyOnVerb args s) := by
  unfold emergencyOnVerb
  repeat' split
  all_goals simp

theorem refusalKeeps_emergencyOffVerb (args : List Text) (s : State) : RefusalKeeps s (emergencyOffVerb args s) := by
  unfold emergencyOffVerb
  repeat' split
  all_goals simp

theorem refusalKeeps_carouselModeVerb (args : List Text) (s : State) : RefusalKeeps s (carouselModeVerb args s) := by
  unfold carouselModeVerb
  repeat' split
  all_goals simp

theorem refusalKeeps_carouselTextVerb (args : List Text) (s : State) : RefusalKeeps s (carouselTextVerb args s) := by
  unfold carouselTextVerb
  repeat' split
  all_goals simp

theorem refusalKeeps_carouselEnableVerb (args : List Text) (s : State) : RefusalKeeps s (carouselEnableVerb args s) := by
  unfold carouselEnableVerb
  repeat' split
  all_goals simp

theorem refusalKeeps_sourceSetVerb (args : List Text) (s : State) : RefusalKeeps s (sourceSetVerb args s) := by
  unfold sourceSetVerb
  repeat' split
  all_goals simp

theorem refusalKeeps_strayRearmVerb (args : List Text) (s : State) : RefusalKeeps s (strayRearmVerb args s) := by
  unfold strayRearmVerb
  repeat' split
  all_goals simp

theorem refusalKeeps_dropConnectVerb (args : List Text) (s : State) : RefusalKeeps s (dropConnectVerb args s) := by
  unfold dropConnectVerb
  repeat' split
  all_goals simp

theorem refusalKeeps_dropTiersVerb (args : List Text) (s : State) : RefusalKeeps s (dropTiersVerb args s) := by
  unfold dropTiersVerb
  repeat' split
  all_goals simp

theorem refusalKeeps_dropReassignVerb (args : List Text) (s : State) : RefusalKeeps s (dropReassignVerb args s) := by
  unfold dropReassignVerb
  repeat' split
  all_goals simp

theorem refusalKeeps_intakeModeVerb (args : List Text) (s : State) : RefusalKeeps s (intakeModeVerb args s) := by
  unfold intakeModeVerb
  repeat' split
  all_goals simp

theorem refusalKeeps_unitSetVerb (args : List Text) (s : State) : RefusalKeeps s (unitSetVerb args s) := by
  unfold unitSetVerb
  repeat' split
  all_goals simp

theorem refusalKeeps_unitServiceVerb (args : List Text) (s : State) : RefusalKeeps s (unitServiceVerb args s) := by
  unfold unitServiceVerb
  repeat' split
  all_goals simp

theorem refusalKeeps_outageDeclareVerb (args : List Text) (s : State) : RefusalKeeps s (outageDeclareVerb args s) := by
  unfold outageDeclareVerb
  repeat' split
  all_goals simp

theorem refusalKeeps_outageEndVerb (args : List Text) (s : State) : RefusalKeeps s (outageEndVerb args s) := by
  unfold outageEndVerb
  repeat' split
  all_goals simp

theorem refusalKeeps_journalReleaseVerb (args : List Text) (s : State) : RefusalKeeps s (journalReleaseVerb args s) := by
  unfold journalReleaseVerb
  repeat' split
  all_goals simp

theorem refusalKeeps_periodCloseVerb (args : List Text) (s : State) : RefusalKeeps s (periodCloseVerb args s) := by
  unfold periodCloseVerb
  repeat' split
  all_goals simp

theorem refusalKeeps_timeSetVerb (args : List Text) (s : State) : RefusalKeeps s (timeSetVerb args s) := by
  unfold timeSetVerb
  repeat' split
  all_goals simp

theorem refusalKeeps_attnClearVerb (args : List Text) (s : State) : RefusalKeeps s (attnClearVerb args s) := by
  unfold attnClearVerb
  repeat' split
  all_goals simp

theorem refusalKeeps_attnMaskVerb (args : List Text) (s : State) : RefusalKeeps s (attnMaskVerb args s) := by
  unfold attnMaskVerb
  repeat' split
  all_goals simp

theorem refusalKeeps_attnForceVerb (args : List Text) (s : State) : RefusalKeeps s (attnForceVerb args s) := by
  unfold attnForceVerb
  repeat' split
  all_goals simp

theorem refusalKeeps_paramSetVerb (args : List Text) (s : State) : RefusalKeeps s (paramSetVerb args s) := by
  unfold paramSetVerb
  repeat' split
  all_goals simp

theorem refusalKeeps_runVerb (args : List Text) (s : State) : RefusalKeeps s (runVerb args s) := by
  unfold runVerb
  repeat' split
  all_goals simp

theorem refusalKeeps_stopVerb (args : List Text) (s : State) : RefusalKeeps s (stopVerb args s) := by
  unfold stopVerb
  repeat' split
  all_goals simp

theorem refusalKeeps_resetVerb (args : List Text) (s : State) : RefusalKeeps s (resetVerb args s) := by
  unfold resetVerb
  repeat' split
  all_goals simp

theorem refusalKeeps_guardVerb (on : Bool) (args : List Text) (s : State) : RefusalKeeps s (guardVerb on args s) := by
  unfold guardVerb
  repeat' split
  all_goals simp

theorem refusalKeeps_oneDropVerb (refusal : State → Nat → Option Reason) (effect : Nat → State → State)
    (args : List Text) (s : State) : RefusalKeeps s (oneDropVerb refusal effect args s) := by
  unfold oneDropVerb
  repeat' split
  all_goals simp

/-- The state after a refusal: the line has left, and its ERR stands in the queue. -/
theorem refused_of_answered (l : Lane) (tag : Byte) (r : Reply) (s : State) :
    Replied l tag r s (answered l tag r s).report ∧ OnlyChanges [.office, .marks] s (answered l tag r s).report :=
  ⟨replied_of_office (Agree.refl ..), (((popLine_only l s).mono (by simp)).trans ((emit_only _ _).mono (by simp))).trans
    ((report_only _).mono (by simp))⟩

section Refused

variable {v : Verb} {l : Lane} {tag : Byte} {args : List Text} {why : Reason} {s t : State}

/-- A reply that stands behind an unchanged queue is the one appended. -/
theorem reply_of_outQ {u : State} {r : Reply} (hu : u.ofp.outQ = s.ofp.outQ)
    (h : (emit (.reply l tag r) u).ofp.outQ = s.ofp.outQ ++ [.reply l tag (.err why)]) : r = .err why := by
  rw [emit_outQ, hu] at h
  simpa using h

theorem refused_dispatch {act : List Text → State → State × Reply} (hkeeps : ∀ args u, Keeps u (act args u).1)
    (hact : ∀ args u, RefusalKeeps u (act args u)) (hd : s.dispatching l v = some (tag, args))
    (he : dispatch v l act s = .next t) (hq : t.ofp.outQ = s.ofp.outQ ++ [.reply l tag (.err why)]) :
    Replied l tag (.err why) s t ∧ OnlyChanges [.office, .marks] s t := by
  simp only [dispatch, hd, done] at he
  split at he
  · cases he
    have hout := (hkeeps args (popLine l s)).outQ.trans (popLine_outQ s l)
    have hr : (act args (popLine l s)).2 = .err why := reply_of_outQ hout hq
    rw [hact args _ why hr, hr]
    exact refused_of_answered l tag (.err why) s
  · cases he
    cases reply_of_outQ (popLine_outQ s l) hq
    exact refused_of_answered l tag (.err .lane) s

theorem refused_answer {read : List Text → State → Reply} (hd : s.dispatching l v = some (tag, args))
    (he : answer v l read s = .next t) (hq : t.ofp.outQ = s.ofp.outQ ++ [.reply l tag (.err why)]) :
    Replied l tag (.err why) s t ∧ OnlyChanges [.office, .marks] s t := by
  simp only [answer, hd] at he
  cases he
  have hr := reply_of_outQ (popLine_outQ s l) hq
  rw [hr]
  exact ⟨replied_of_office (Agree.refl ..), ((popLine_only l s).mono (by simp)).trans ((emit_only _ _).mono (by simp))⟩

/-- An accepted verb whose reply comes later appends no line. -/
theorem refused_dispatchDeferred {refusal : List Text → State → Option Reason} {start : Byte → State → State}
    (hstart : ∀ tag u, (start tag u).ofp.outQ = u.ofp.outQ) (hd : s.dispatching l v = some (tag, args))
    (he : dispatchDeferred v l refusal start s = .next t)
    (hq : t.ofp.outQ = s.ofp.outQ ++ [.reply l tag (.err why)]) :
    Replied l tag (.err why) s t ∧ OnlyChanges [.office, .marks] s t := by
  simp only [dispatchDeferred, hd, done] at he
  split at he
  · cases he
    have hr := reply_of_outQ (popLine_outQ s l) hq
    rw [hr]
    exact refused_of_answered l tag (.err why) s
  · cases he
    have hout : (start tag (popLine l s)).ofp.outQ = s.ofp.outQ := (hstart ..).trans (popLine_outQ s l)
    exact absurd (hout.symm.trans hq) (by simp)

theorem refused_identify (hd : s.dispatching l .identify = some (tag, args)) (he : execIdentify l s = .next t)
    (hq : t.ofp.outQ = s.ofp.outQ ++ [.reply l tag (.err why)]) :
    Replied l tag (.err why) s t ∧ OnlyChanges [.office, .marks] s t := by
  unfold execIdentify at he
  split at he
  · cases he
    exact absurd hq (by simp)
  · exact refused_answer hd he hq

end Refused

/-- Settles O5: what a verb's owner answers with ERR comes with the state as it was, verb by verb. -/
theorem refusedVerbChangesNothing : Obligations.RefusedVerbChangesNothing := by
  intro v l tag args why s t hd he hq
  cases v with
  | slotSet => exact refused_dispatch keeps_slotSetVerb refusalKeeps_slotSetVerb hd he hq
  | slotRestore => exact refused_dispatch keeps_slotRestoreVerb refusalKeeps_slotRestoreVerb hd he hq
  | eventAdd => exact refused_dispatch keeps_eventAddVerb refusalKeeps_eventAddVerb hd he hq
  | eventCancel => exact refused_dispatch keeps_eventCancelVerb refusalKeeps_eventCancelVerb hd he hq
  | eventDelete => exact refused_dispatch keeps_eventDeleteVerb refusalKeeps_eventDeleteVerb hd he hq
  | emergencyOn => exact refused_dispatch keeps_emergencyOnVerb refusalKeeps_emergencyOnVerb hd he hq
  | emergencyOff => exact refused_dispatch keeps_emergencyOffVerb refusalKeeps_emergencyOffVerb hd he hq
  | carouselMode => exact refused_dispatch keeps_carouselModeVerb refusalKeeps_carouselModeVerb hd he hq
  | carouselText => exact refused_dispatch keeps_carouselTextVerb refusalKeeps_carouselTextVerb hd he hq
  | carouselEnable => exact refused_dispatch keeps_carouselEnableVerb refusalKeeps_carouselEnableVerb hd he hq
  | sourceSet => exact refused_dispatch keeps_sourceSetVerb refusalKeeps_sourceSetVerb hd he hq
  | strayRearm => exact refused_dispatch keeps_strayRearmVerb refusalKeeps_strayRearmVerb hd he hq
  | dropConnect => exact refused_dispatch keeps_dropConnectVerb refusalKeeps_dropConnectVerb hd he hq
  | dropTiers => exact refused_dispatch keeps_dropTiersVerb refusalKeeps_dropTiersVerb hd he hq
  | dropReassign => exact refused_dispatch keeps_dropReassignVerb refusalKeeps_dropReassignVerb hd he hq
  | intakeMode => exact refused_dispatch keeps_intakeModeVerb refusalKeeps_intakeModeVerb hd he hq
  | unitSet => exact refused_dispatch keeps_unitSetVerb refusalKeeps_unitSetVerb hd he hq
  | unitService => exact refused_dispatch keeps_unitServiceVerb refusalKeeps_unitServiceVerb hd he hq
  | outageDeclare => exact refused_dispatch keeps_outageDeclareVerb refusalKeeps_outageDeclareVerb hd he hq
  | outageEnd => exact refused_dispatch keeps_outageEndVerb refusalKeeps_outageEndVerb hd he hq
  | journalRelease => exact refused_dispatch keeps_journalReleaseVerb refusalKeeps_journalReleaseVerb hd he hq
  | periodClose => exact refused_dispatch keeps_periodCloseVerb refusalKeeps_periodCloseVerb hd he hq
  | timeSet => exact refused_dispatch keeps_timeSetVerb refusalKeeps_timeSetVerb hd he hq
  | attnClear => exact refused_dispatch keeps_attnClearVerb refusalKeeps_attnClearVerb hd he hq
  | attnMask => exact refused_dispatch keeps_attnMaskVerb refusalKeeps_attnMaskVerb hd he hq
  | attnForce => exact refused_dispatch keeps_attnForceVerb refusalKeeps_attnForceVerb hd he hq
  | paramSet => exact refused_dispatch keeps_paramSetVerb refusalKeeps_paramSetVerb hd he hq
  | run => exact refused_dispatch keeps_runVerb refusalKeeps_runVerb hd he hq
  | stop => exact refused_dispatch keeps_stopVerb refusalKeeps_stopVerb hd he hq
  | reset => exact refused_dispatch keeps_resetVerb refusalKeeps_resetVerb hd he hq
  | protectSet => exact refused_dispatch (keeps_guardVerb true) (refusalKeeps_guardVerb true) hd he hq
  | protectClear => exact refused_dispatch (keeps_guardVerb false) (refusalKeeps_guardVerb false) hd he hq
  | dropSuspend => exact refused_dispatch keeps_dropSuspend (refusalKeeps_oneDropVerb _ _) hd he hq
  | dropResume => exact refused_dispatch keeps_dropResume (refusalKeeps_oneDropVerb _ _) hd he hq
  | dropDisconnect => exact refused_dispatch keeps_dropDisconnect (refusalKeeps_oneDropVerb _ _) hd he hq
  | dropSend => exact refused_dispatch keeps_dropSend (refusalKeeps_oneDropVerb _ _) hd he hq
  | identify => exact refused_identify hd he hq
  | settingsSave => exact refused_dispatchDeferred (start := startSave) (fun _ _ => rfl) hd he hq
  | settingsClear => exact refused_dispatchDeferred (start := startClear) (fun _ _ => rfl) hd he hq
  | slotRead | eventRead | eventList | carouselRead | sourceRead | sourceList | matrixStatus | strayRead | carrierStatus
  | protectRead | dropRead | dropList | authStatus | refreshStatus | intakeStatus | unitRead | unitList | pollStatus
  | outageRead | outageList | journalRead | journalStatus | timeStatus | attnRead | status | paramRead
  | settingsStatus => exact refused_answer hd he hq

end Sys2Proof.Proofs

/-! PROOFS. The line-up when several slots change at once: the override (O27), SOURCE.SET (O29), TIME.SET (O41) and the
matrix port (O57). First what resolving a list of slots in turn leaves, then the families of verbs and events. -/

namespace Sys2Proof.Proofs

open Sys2Proof Sys2Proof.Machine Sys2Proof.Laws

/-! ## Slots resolved in turn -/

/-- Every order that the queue holds for slot `k` names source `x`, and there is one. -/
def HasOrder (k x : Nat) (q : List Order) : Prop := (∃ o ∈ q, o.slot = k) ∧ ∀ o ∈ q, o.slot = k → o.source = x

theorem putOrderIn_of_any {k x : Nat} {q : List Order} (h : ∃ o ∈ q, o.slot = k) :
    putOrderIn k x q = q.map fun o => if o.slot = k then { o with source := x } else o := by
  have hany : (q.any fun o => o.slot == k) = true := by simpa using h
  simp only [putOrderIn, hany, if_true]

theorem putOrderIn_of_not_any {k x : Nat} {q : List Order} (h : ¬∃ o ∈ q, o.slot = k) :
    putOrderIn k x q = q ++ [⟨k, x⟩] := by
  have hany : ¬(q.any fun o => o.slot == k) = true := by simpa using h
  simp only [putOrderIn, if_neg hany]

theorem mem_putOrderIn {k x : Nat} {q : List Order} {o : Order} (h : o ∈ putOrderIn k x q) :
    o = ⟨k, x⟩ ∨ (o ∈ q ∧ o.slot ≠ k) := by
  by_cases hany : ∃ o ∈ q, o.slot = k
  · rw [putOrderIn_of_any hany] at h
    obtain ⟨p, hp, rfl⟩ := List.mem_map.mp h
    by_cases hs : p.slot = k
    · simp [hs]
    · simp [hs, hp]
  · rw [putOrderIn_of_not_any hany] at h
    rcases List.mem_append.mp h with ho | ho
    · exact .inr ⟨ho, fun hs => hany ⟨o, ho, hs⟩⟩
    · exact .inl (by simpa using ho)

theorem slot_mem_putOrderIn (k x : Nat) (q : List Order) : ∃ o ∈ putOrderIn k x q, o.slot = k := by
  by_cases hany : ∃ o ∈ q, o.slot = k
  · rw [putOrderIn_of_any hany]
    obtain ⟨o, ho, hs⟩ := hany
    exact ⟨_, List.mem_map_of_mem ho, by simp [hs]⟩
  · rw [putOrderIn_of_not_any hany]
    exact ⟨⟨k, x⟩, by simp, rfl⟩

theorem hasOrder_putOrderIn (k x : Nat) (q : List Order) : HasOrder k x (putOrderIn k x q) := by
  refine ⟨slot_mem_putOrderIn k x q, fun o ho hs => ?_⟩
  rcases mem_putOrderIn ho with rfl | ⟨_, hne⟩
  · rfl
  · exact absurd hs hne

/-- An order for another slot does not touch those of slot `k`. -/
theorem HasOrder.putOrderIn {k x j y : Nat} {q : List Order} (h : HasOrder k x q) (hj : j ≠ k) :
    HasOrder k x (putOrderIn j y q) := by
  obtain ⟨⟨o, ho, hs⟩, hall⟩ := h
  refine ⟨?_, fun p hp hk => ?_⟩
  · by_cases hany : ∃ o ∈ q, o.slot = j
    · rw [putOrderIn_of_any hany]
      exact ⟨_, List.mem_map_of_mem ho, by simp [hs, hj.symm]⟩
    · rw [putOrderIn_of_not_any hany]
      exact ⟨o, by simp [ho], hs⟩
  · rcases mem_putOrderIn hp with rfl | ⟨hq, _⟩
    · exact absurd hk hj
    · exact hall p hq hk

/-- The same order once more leaves the queue as it is (R32). -/
theorem HasOrder.putOrderIn_eq {k x : Nat} {q : List Order} (h : HasOrder k x q) :
    Machine.putOrderIn k x q = q := by
  rw [putOrderIn_of_any h.1]
  refine (List.map_congr_left fun o ho => ?_).trans (List.map_id q)
  by_cases hs : o.slot = k
  · rw [if_pos hs, ← h.2 o ho hs]
    rfl
  · simp [hs]

/-- The orders of a slot that has its order already may be left out. -/
theorem ordersPut_filter_ne {t : State} {k : Nat} (ks : List Nat) {q : List Order}
    (h : HasOrder k (t.slot k).resolved q) : ordersPut (ks.filter fun j => j != k) t q = ordersPut ks t q := by
  induction ks generalizing q with
  | nil => rfl
  | cons j ks ih =>
    by_cases hj : j = k
    · subst hj
      have hcons : ordersPut (j :: ks) t q = ordersPut ks t (putOrderIn j (t.slot j).resolved q) := rfl
      rw [hcons, h.putOrderIn_eq, List.filter_cons_of_neg (by simp), ih h]
    · have hne : (j != k) = true := by simpa using hj
      simp only [List.filter_cons, hne, if_true, ordersPut, List.foldl_cons]
      exact ih (h.putOrderIn hj)

theorem resolution_resolveSlot (k j : Nat) (s : State) : resolution (resolveSlot k s) j = resolution s j := by
  refine resolution_congr ?_ ?_ (by simp) (by simp) (by simp)
  all_goals
    rw [resolveSlot_slot]
    split
    · next h => subst h; rfl
    · rfl

/-- Slot `k` with its resolution as the state gives it. -/
def reresolvedSlot (s : State) (k : Nat) : Slot :=
  { s.slot k with resolved := (resolution s k).1, step := (resolution s k).2 }

/-- The slot's source changes when it is resolved again, and the slot is enabled (R6). -/
def ordersAgain (s : State) (k : Nat) : Bool := (s.slot k).cfg.enabled && (resolution s k).1 != (s.slot k).resolved

/-- The slot goes to or from the slate when it is resolved again (R20). -/
def slatesAgain (s : State) (k : Nat) : Prop := ((resolution s k).1 == 0) ≠ ((s.slot k).resolved == 0)

section ResolveSlots

theorem resolveSlots_slot (ks : List Nat) (s : State) (j : Nat) :
    (resolveSlots ks s).slot j = if j ∈ ks then reresolvedSlot s j else s.slot j := by
  induction ks generalizing s with
  | nil => rfl
  | cons k ks ih =>
    refine (ih (resolveSlot k s)).trans ?_
    simp only [reresolvedSlot, resolution_resolveSlot, resolveSlot_slot, List.mem_cons]
    by_cases hj : j = k
    · subst hj
      simp
    · simp [hj]

@[simp] theorem resolveSlots_events (ks : List Nat) (s : State) : (resolveSlots ks s).lur.events = s.lur.events := by
  induction ks generalizing s with
  | nil => rfl
  | cons k ks ih => exact (ih _).trans (resolveSlot_events k s)

@[simp] theorem resolveSlots_override (ks : List Nat) (s : State) :
    (resolveSlots ks s).lur.override = s.lur.override := by
  induction ks generalizing s with
  | nil => rfl
  | cons k ks ih => exact (ih _).trans (resolveSlot_override k s)

@[simp] theorem resolveSlots_smn (ks : List Nat) (s : State) : (resolveSlots ks s).smn = s.smn :=
  resolveSlots_only ks s .smn (by simp)

theorem pagesOnly_trans {s t u : State} (h : PagesOnly s t) (g : PagesOnly t u) : PagesOnly s u := by
  have h' : ∀ m v, { t.crs with mapPages := m, eventPages := v } = { s.crs with mapPages := m, eventPages := v } :=
    fun m v => by rw [h]
  exact Eq.trans g (h' _ _)

theorem resolveSlots_pagesOnly (ks : List Nat) (s : State) :
    PagesOnly s (resolveSlots ks s) ∧ (resolveSlots ks s).crs.eventPages = s.crs.eventPages := by
  induction ks generalizing s with
  | nil => exact ⟨rfl, rfl⟩
  | cons k ks ih =>
    obtain ⟨hpages, hev⟩ := ih (resolveSlot k s)
    refine ⟨?_, hev.trans (resolveSlot_eventPages k s)⟩
    have hk := resolveSlot_pagesOnly k s
    exact pagesOnly_trans hk hpages

theorem ordersAgain_resolveSlot (k j : Nat) (s : State) :
    ordersAgain (resolveSlot k s) j = (ordersAgain s j && j != k) := by
  simp only [ordersAgain, resolution_resolveSlot, resolveSlot_slot]
  by_cases hj : j = k
  · subst hj
    simp
  · simp [hj]

theorem resolveSlots_mxp (ks : List Nat) (s : State) : (resolveSlots ks s).mxp =
    { s.mxp with queue := ordersPut (ks.filter (ordersAgain s)) (resolveSlots ks s) s.mxp.queue } := by
  induction ks generalizing s with
  | nil => rfl
  | cons k ks ih =>
    have ht : resolveSlots (k :: ks) s = resolveSlots ks (resolveSlot k s) := rfl
    have hslot : ((resolveSlots (k :: ks) s).slot k).resolved = (resolution s k).1 := by
      rw [resolveSlots_slot, if_pos (by simp)]
      rfl
    have hfilter : ks.filter (ordersAgain (resolveSlot k s)) = (ks.filter (ordersAgain s)).filter fun j => j != k := by
      rw [List.filter_filter]
      exact List.filter_congr fun j _ => (ordersAgain_resolveSlot k j s).trans (Bool.and_comm ..)
    have hqueue : (resolveSlot k s).mxp.queue
        = if ordersAgain s k then putOrderIn k (resolution s k).1 s.mxp.queue else s.mxp.queue := by
      rw [resolveSlot_mxp]
      simp [ordersAgain]
    rw [ht, ih, hfilter, ← ht, hqueue]
    have hmxp : (resolveSlot k s).mxp = { s.mxp with queue := (resolveSlot k s).mxp.queue } := by rw [resolveSlot_mxp]
    rw [hmxp]
    by_cases hk : ordersAgain s k = true
    · simp only [hk, if_true, List.filter_cons_of_pos]
      rw [ordersPut_filter_ne _ (hslot ▸ hasOrder_putOrderIn k _ _), ordersPut, ordersPut, List.foldl_cons, hslot]
    · have hnot : (ks.filter (ordersAgain s)).filter (fun j => j != k) = ks.filter (ordersAgain s) := by
        refine List.filter_eq_self.mpr fun j hj => ?_
        rw [bne_iff_ne]
        rintro rfl
        exact hk (List.mem_filter.mp hj).2
      simp only [hnot, List.filter_cons, if_neg hk]

theorem mapPage_resolveSlot {k n : Nat} {s : State} (h : ¬(n = mapPageOf k ∧ slatesAgain s k)) :
    mapPage (resolveSlot k s) n = mapPage s n := by
  refine List.map_congr_left fun i hi => ?_
  have hi : i < 8 := List.mem_range.mp hi
  simp only [mapEntry, resolveSlot_slot]
  by_cases hk : 8 * n + i + 1 = k
  · have hn : n = mapPageOf k := by
      unfold mapPageOf
      omega
    have hslate : ((resolution s k).1 == 0) = ((s.slot k).resolved == 0) := by
      by_contra hne
      exact h ⟨hn, hne⟩
    simp only [hk, if_true, hslate]
  · simp only [hk, if_false]

theorem slatesAgain_resolveSlot {k j : Nat} {s : State} (h : j ≠ k) :
    slatesAgain (resolveSlot k s) j ↔ slatesAgain s j := by
  simp only [slatesAgain, resolution_resolveSlot, resolveSlot_slot, if_neg h]

/-- A page that says what the slots give, or on which a slot goes to or from the slate, says so in the end. -/
theorem resolveSlots_page_current (ks : List Nat) (s : State) (n : Nat)
    (h : (∃ k ∈ ks, mapPageOf k = n ∧ slatesAgain s k) ∨ s.mapPageHeld n = mapPage s n) :
    (resolveSlots ks s).mapPageHeld n = mapPage (resolveSlots ks s) n := by
  induction ks generalizing s with
  | nil =>
    rcases h with ⟨k, hk, _⟩ | h
    · simp at hk
    · exact h
  | cons k ks ih =>
    refine ih (resolveSlot k s) ?_
    by_cases hk : n = mapPageOf k ∧ slatesAgain s k
    · exact .inr ((resolveSlot_mapPageHeld k s n).trans (if_pos hk))
    · rcases h with ⟨j, hj, hpage, hslate⟩ | hcurrent
      · have hne : j ≠ k := by
          rintro rfl
          exact hk ⟨hpage.symm, hslate⟩
        exact .inl ⟨j, (List.mem_cons.mp hj).resolve_left hne, hpage, (slatesAgain_resolveSlot hne).mpr hslate⟩
      · refine .inr ((resolveSlot_mapPageHeld k s n).trans ((if_neg hk).trans ?_))
        rw [hcurrent, mapPage_resolveSlot hk]

/-- A page on which no slot goes to or from the slate is not built again. -/
theorem resolveSlots_page_kept (ks : List Nat) (s : State) (n : Nat)
    (h : ∀ k ∈ ks, mapPageOf k = n → ¬slatesAgain s k) : (resolveSlots ks s).mapPageHeld n = s.mapPageHeld n := by
  induction ks generalizing s with
  | nil => rfl
  | cons k ks ih =>
    have hk : ¬(n = mapPageOf k ∧ slatesAgain s k) := fun ⟨hn, hs⟩ => h k (by simp) hn.symm hs
    refine (ih (resolveSlot k s) fun j hj hn => ?_).trans ((resolveSlot_mapPageHeld k s n).trans (if_neg hk))
    by_cases hjk : j = k
    · subst hjk
      simp [slatesAgain, resolution_resolveSlot]
    · exact fun hs => h j (by simp [hj]) hn ((slatesAgain_resolveSlot hjk).mp hs)

variable {ks : List Nat} {s : State}

theorem resolution_resolveSlots (ks : List Nat) (s : State) (k : Nat) :
    resolution (resolveSlots ks s) k = resolution s k := by
  induction ks generalizing s with
  | nil => rfl
  | cons j ks ih => exact (ih _).trans (resolution_resolveSlot j k s)

theorem resolved_resolveSlots {k : Nat} (h : k ∈ ks) : Resolved k (resolveSlots ks s) := by
  rw [Resolved, resolution_resolveSlots, resolveSlots_slot, if_pos h]
  rfl

theorem keepsSlot_resolveSlots (k : Nat) : KeepsSlot k s (resolveSlots ks s) := by
  simp only [KeepsSlot, resolveSlots_slot]
  split <;> exact ⟨rfl, rfl, rfl, rfl⟩

theorem resolveSlots_resolved (k : Nat) :
    ((resolveSlots ks s).slot k).resolved = if k ∈ ks then (resolution s k).1 else (s.slot k).resolved := by
  rw [resolveSlots_slot]
  split <;> rfl

/-- A slot that is not listed is blank, and resolves to what it holds. -/
theorem slot_of_not_mem_slotKeys {k : Nat} (h : k ∉ s.slotKeys) : s.slot k = Slot.blank k := get_of_not_mem_keys _ h

theorem resolved_of_not_mem_slotKeys {t : State} {k : Nat} (h : t.slot k = Slot.blank k) : Resolved k t := by
  simp only [Resolved, resolution, h]
  rfl

/-- Resolving in turn the listed slots that `p` names is what `Reresolved` says. -/
theorem reresolved_resolveSlots (p : Nat → Bool) (s : State) :
    Reresolved p s (resolveSlots (s.slotKeys.filter p) s) := by
  have hmem : ∀ k, k ∈ s.slotKeys.filter p ↔ k ∈ s.slotKeys ∧ p k = true := fun k => List.mem_filter
  obtain ⟨hpages, _⟩ := resolveSlots_pagesOnly (s.slotKeys.filter p) s
  refine ⟨fun k => ?_, by simp, by simp, ?_, ?_, hpages, fun k hp hslate => ?_, fun n hn => ?_⟩
  · split
    · next hp =>
      refine ⟨?_, keepsSlot_resolveSlots k⟩
      by_cases hk : k ∈ s.slotKeys
      · exact resolved_resolveSlots ((hmem k).mpr ⟨hk, hp⟩)
      · refine resolved_of_not_mem_slotKeys ?_
        rw [resolveSlots_slot, if_neg fun h => hk ((hmem k).mp h).1, slot_of_not_mem_slotKeys hk]
    · next hp => rw [resolveSlots_slot, if_neg fun h => hp ((hmem k).mp h).2]
  · rw [resolveSlots_mxp]
  · have hqueue := congrArg Mxp.queue (resolveSlots_mxp (s.slotKeys.filter p) s)
    refine hqueue.trans (congrArg (fun l => ordersPut l (resolveSlots (s.slotKeys.filter p) s) s.mxp.queue) ?_)
    rw [List.filter_filter]
    refine List.filter_congr fun k hk => ?_
    by_cases hp : p k = true
    · simp [ordersAgain, hp, resolveSlots_resolved, hmem k, hk]
    · simp [hp]
  · refine resolveSlots_page_current _ s _ (.inl ⟨k, ?_, rfl, ?_⟩)
    all_goals
      have hk : k ∈ s.slotKeys.filter p := by
        by_contra hk
        exact hslate (by rw [resolveSlots_resolved, if_neg hk])
    · exact hk
    · rw [resolveSlots_resolved, if_pos hk] at hslate
      exact hslate
  · refine resolveSlots_page_kept _ s n fun k hk hpage hslate => hslate ?_
    have := hn k ((hmem k).mp hk).2 hpage
    rwa [resolveSlots_resolved, if_pos hk] at this

end ResolveSlots


/-! ## A write of one block -/

theorem only_tmb (x : Tmb) (s : State) : OnlyChanges [.tmb] s { s with tmb := x } := fun q hq => by
  cases q with
  | tmb => simp at hq
  | _ => rfl

theorem only_mxp (x : Mxp) (s : State) : OnlyChanges [.mxp] s { s with mxp := x } := fun q hq => by
  cases q with
  | mxp => simp at hq
  | _ => rfl

theorem only_crs (x : Crs) (s : State) : OnlyChanges [.crs] s { s with crs := x } := fun q hq => by
  cases q with
  | crs => simp at hq
  | _ => rfl

theorem only_urx (x : Urx) (s : State) : OnlyChanges [.urx] s { s with urx := x } := fun q hq => by
  cases q with
  | urx => simp at hq
  | _ => rfl

theorem only_rsw (x : Rsw) (s : State) : OnlyChanges [.rsw] s { s with rsw := x } := fun q hq => by
  cases q with
  | rsw => simp at hq
  | _ => rfl

theorem only_pin (x : Pin) (s : State) : OnlyChanges [.pin] s { s with pin := x } := fun q hq => by
  cases q with
  | pin => simp at hq
  | _ => rfl

theorem only_ppl (x : Ppl) (s : State) : OnlyChanges [.ppl] s { s with ppl := x } := fun q hq => by
  cases q with
  | ppl => simp at hq
  | _ => rfl

theorem only_olz (x : Olz) (s : State) : OnlyChanges [.olz] s { s with olz := x } := fun q hq => by
  cases q with
  | olz => simp at hq
  | _ => rfl

theorem only_bjn (x : Bjn) (s : State) : OnlyChanges [.bjn] s { s with bjn := x } := fun q hq => by
  cases q with
  | bjn => simp at hq
  | _ => rfl

theorem only_params (x : Params) (s : State) : OnlyChanges [.params] s { s with params := x } := fun q hq => by
  cases q with
  | params => simp at hq
  | _ => rfl

theorem only_dtb (x : Dtb) (s : State) : OnlyChanges [.dtb] s { s with dtb := x } := fun q hq => by
  cases q with
  | dtb => simp at hq
  | _ => rfl

theorem only_smn (x : Smn) (s : State) : OnlyChanges [.smn] s { s with smn := x } := fun q hq => by
  cases q with
  | smn => simp at hq
  | _ => rfl

/-! ## What verbs and their checks share -/

/-- A verb's first check, as its owner makes it: the reason word, or the rest of the verb. -/
theorem checked_of_ite {c : Instr} {v : Verb} {l : Lane} {tag : Byte} {args : List Text} {s : State} {b fails : Prop}
    [Decidable b] {why : Reason} {checks : List (Prop × Reason)} {ok : Prop} {x : State × Reply}
    {act : List Text → State → State × Reply} (hc : exec c s = dispatch v l act s) (h : Takes v l tag args s)
    (hact : act args (popLine l s) = if b then refuse why (popLine l s) else x) (hb : b ↔ fails)
    (hrest : act args (popLine l s) = x → Checked c l tag s checks ok) :
    Checked c l tag s ((fails, why) :: checks) ok :=
  ⟨fun hf => refuses_of_effect hc h (hact.trans (if_pos (hb.mpr hf))),
    fun hf => hrest (hact.trans (if_neg (mt hb.mp hf)))⟩

/-- A command without a reply that ends with the owners' report of their readiness. -/
theorem happens_done {c : Instr} {s t : State} {ps : List Part} {q : State → Prop} (he : exec c s = done t)
    (ho : OnlyChanges ps s t) (hq : q t.report) : Happens c s ps q :=
  ⟨t.report, he, (ho.mono (by simp)).trans ((report_only t).mono (by simp)), hq⟩

/-- What a verb has raised stands after its reply. -/
theorem raised_reply {ks : List Kind} {l : Lane} {s u : State} (h : Raised ks (popLine l s) u) (o : OutLine) :
    Raised ks s (emit o u).report := fun k => (h k).trans (by simp)

/-- What a verb has resolved again is so after its reply. -/
theorem reresolved_reply {p : Nat → Bool} {l : Lane} {s t u : State} (h : Reresolved p (popLine l t) u)
    (hs : s.lur = t.lur) (hm : s.mxp = t.mxp) (hc : s.crs = t.crs) (o : OutLine) :
    Reresolved p s (emit o u).report := reresolved_congr h hs hm hc rfl rfl rfl rfl

end Sys2Proof.Proofs

/-! PROOFS. The emergency override (O27) and SOURCE.SET (O29): each resolves again the slots that a condition names. -/

namespace Sys2Proof.Proofs

open Sys2Proof Sys2Proof.Machine Sys2Proof.Laws

/-! ## The override (R17 to R19) -/

theorem reresolved_resolveNonExempt (s : State) :
    Reresolved (fun k => !(s.slot k).cfg.exempt) s (resolveNonExempt s) := reresolved_resolveSlots _ s

theorem resolveNonExempt_only (s : State) : OnlyChanges [.lur, .mxp, .crs] s (resolveNonExempt s) :=
  resolveSlots_only _ s

theorem resolveNonExempt_eventPages (s : State) : (resolveNonExempt s).crs.eventPages = s.crs.eventPages :=
  (resolveSlots_pagesOnly _ s).2

theorem resolveNonExempt_override (s : State) : (resolveNonExempt s).lur.override = s.lur.override :=
  resolveSlots_override _ s

theorem endOverride_only (s : State) : OnlyChanges [.lur, .mxp, .crs, .attn] s (endOverride s) :=
  ((setOverride_only _ s).mono (by simp)).trans
    (((raise_only .emergency _).mono (by simp)).trans ((resolveNonExempt_only _).mono (by simp)))

theorem overrideEnded_endOverride (s : State) : OverrideEnded s (endOverride s) := by
  let s₁ := s.setOverride { s.lur.override with active := false, ready := false }
  have hattn : (endOverride s).ofp.attn = (raise .emergency s₁).ofp.attn :=
    resolveNonExempt_only (raise .emergency s₁) .attn (by simp)
  refine ⟨fun k => (attn_congr hattn k).trans (raised_raise .emergency s s₁ rfl k),
    resolveNonExempt_eventPages (raise .emergency s₁), ?_⟩
  exact reresolved_congr (reresolved_resolveNonExempt (raise .emergency s₁)) rfl rfl rfl rfl rfl rfl rfl

theorem overrideEnded_reply {l : Lane} {s u : State} (h : OverrideEnded (popLine l s) u) (o : OutLine) :
    OverrideEnded s (emit o u).report := by
  obtain ⟨hraised, hpages, hslots⟩ := h
  exact ⟨raised_reply hraised o, hpages, reresolved_congr hslots rfl rfl rfl rfl rfl rfl rfl⟩

/-- The override that EMERGENCY.ON starts or renews (R17). -/
def startedOverride (source duration slot code : Nat) (s : State) : Override :=
  ⟨true, source, slot, code, s.tmb.run + BitVec.ofNat 32 duration,
    s.tmb.run + BitVec.ofNat 32 s.params.alertInterval, true⟩

section EmergencyOn

variable (source duration slot code : Nat) (s : State)

theorem emergencyOnEffect_eq : emergencyOnEffect source duration slot code s =
    if s.lur.override.active = true ∧ s.lur.override.source = source then
      s.setOverride (startedOverride source duration slot code s)
    else resolveNonExempt (s.setOverride (startedOverride source duration slot code s)) := rfl

theorem emergencyOnEffect_only :
    OnlyChanges [.lur, .mxp, .crs] s (emergencyOnEffect source duration slot code s) :=
  have honly := (setOverride_only (startedOverride source duration slot code s) s).mono (qs := [.lur, .mxp, .crs])
    (by simp)
  honly.ite (honly.trans (resolveNonExempt_only _))

/-- An accepted EMERGENCY.ON: the same source again changes the override alone, any other the slots too. -/
theorem emergencyOnEffect_spec :
    let o := startedOverride source duration slot code s
    let t := emergencyOnEffect source duration slot code s
    t.lur.override = o ∧ t.crs.eventPages = s.crs.eventPages
      ∧ (s.lur.override.active = true ∧ s.lur.override.source = source →
          t.lur = { s.lur with override := o } ∧ t.mxp = s.mxp ∧ t.crs = s.crs)
      ∧ (¬(s.lur.override.active = true ∧ s.lur.override.source = source) →
          Reresolved (fun k => !(s.slot k).cfg.exempt) (s.setOverride o) t) := by
  intro o t
  have ht : t = _ := emergencyOnEffect_eq source duration slot code s
  by_cases hsame : s.lur.override.active = true ∧ s.lur.override.source = source
  · rw [if_pos hsame] at ht
    rw [ht]
    exact ⟨rfl, rfl, fun _ => ⟨rfl, rfl, rfl⟩, fun h => absurd hsame h⟩
  · rw [if_neg hsame] at ht
    rw [ht]
    exact ⟨resolveNonExempt_override _, resolveNonExempt_eventPages _, fun h => absurd h hsame,
      fun _ => reresolved_resolveNonExempt (s.setOverride o)⟩

end EmergencyOn

theorem emergencyOnVerb_of_unread {args : List Text} (ha : argsEmergencyOn args = none) (s : State) :
    emergencyOnVerb args s = refuse .args s := by simp [emergencyOnVerb, ha]

theorem emergencyOnVerb_of_args {args : List Text} {source duration slot code : Nat}
    (ha : argsEmergencyOn args = some (source, duration, slot, code)) (s : State) : emergencyOnVerb args s =
      if (s.source source).cfg.kind ≠ .alert then refuse .args s
      else if !(s.slot slot).cfg.enabled then refuse .state s
      else accept (emergencyOnEffect source duration slot code s) := by
  simp only [emergencyOnVerb, ha]

theorem emergencyOffVerb_eq (args : List Text) (s : State) : emergencyOffVerb args s =
    if args ≠ [] then refuse .args s
    else if !s.lur.override.active then refuse .state s else accept (endOverride s) := by
  cases args with
  | nil => cases hactive : s.lur.override.active <;> simp [emergencyOffVerb, hactive]
  | cons a rest => rfl

/-- Settles O27: EMERGENCY.ON by `emergencyOnEffect_spec`, EMERGENCY.OFF and the expiry both by
`overrideEnded_endOverride`, and the ALERT by its write of the override. -/
theorem emergencyOverride : Obligations.EmergencyOverride := by
  refine ⟨fun l tag args s h => ⟨fun ha => ?_, fun source duration slot code ha => ?_⟩, fun l tag args s h => ?_,
    fun s hactive hrun => ?_, fun s hactive hrun => ?_⟩
  · exact refuses_of_effect rfl h (emergencyOnVerb_of_unread ha _)
  · refine checked_of_ite rfl h (emergencyOnVerb_of_args ha _) Iff.rfl fun hverb => checked_of_ite rfl h hverb (by simp)
      fun hacc => ?_
    have honly := emergencyOnEffect_only source duration slot code (popLine l s)
    obtain ⟨hover, hpages, hsame, hother⟩ := emergencyOnEffect_spec source duration slot code (popLine l s)
    generalize emergencyOnEffect source duration slot code (popLine l s) = u at *
    exact accepts_of_effect rfl h hacc honly (by simp) ⟨hover, hpages, hsame,
      fun hne => reresolved_congr (hother hne) rfl rfl rfl rfl rfl rfl rfl⟩
  · refine checked_of_ite rfl h (emergencyOffVerb_eq args _) Iff.rfl fun hverb => checked_of_ite rfl h hverb (by simp)
      fun hacc => ?_
    have honly := endOverride_only (popLine l s)
    have hended := overrideEnded_endOverride (popLine l s)
    generalize endOverride (popLine l s) = u at *
    exact accepts_of_effect rfl h hacc honly (by simp) (overrideEnded_reply hended _)
  · have hended := overrideEnded_endOverride s
    have honly := endOverride_only s
    have hexec : takeExpiry s = endOverride s := if_pos (by simp [State.expiryDue, hactive, hrun])
    generalize endOverride s = u at *
    obtain ⟨hraised, hpages, hslots⟩ := hended
    exact happens_done (congrArg done hexec) honly
      ⟨hraised, hpages, reresolved_congr hslots rfl rfl rfl rfl rfl rfl rfl⟩
  · have hexec : takeAlert s = _ := if_pos (by simp [State.alertIsDue, hactive, hrun])
    exact happens_done (congrArg done hexec) (setOverride_only _ s) rfl

/-! ## SOURCE.SET (R25) -/

theorem source_congr {s t : State} (h : t.smn = s.smn) (k : Nat) : t.source k = s.source k := by
  simp only [State.source, h]

theorem usesSource_congr {s t : State} (h : t.lur = s.lur) (x : Nat) : usesSource t x = usesSource s x := by
  funext k
  simp only [usesSource, slot_congr h, showingOn_congr (congrArg Lur.events h), h]

section SourceSet

variable {k : Nat} {c : SourceCfg} {s : State}

theorem sourceSetEffect_of_same (h : c.monitored = (s.source k).cfg.monitored) :
    sourceSetEffect k c s = s.setSource k { s.source k with cfg := c } := if_pos h

/-- The state in which the slots that use the source are resolved again: the source PRESENT under its new fields. -/
def withSource (k : Nat) (c : SourceCfg) (s : State) : State := s.setSource k ⟨c, .present, 0, 0⟩

theorem sourceSetEffect_of_changed (h : c.monitored ≠ (s.source k).cfg.monitored) :
    sourceSetEffect k c s = usabilityChanged k (withSource k c s) := if_neg h

theorem usabilityChanged_only (k : Nat) (s : State) : OnlyChanges [.lur, .mxp, .crs] s (usabilityChanged k s) :=
  resolveSlots_only _ s

theorem reresolved_usabilityChanged (k : Nat) (s : State) :
    Reresolved (usesSource s k) s (usabilityChanged k s) := reresolved_resolveSlots _ s

theorem usabilityChanged_eventPages (k : Nat) (s : State) :
    (usabilityChanged k s).crs.eventPages = s.crs.eventPages := (resolveSlots_pagesOnly _ s).2

theorem usabilityChanged_smn (k : Nat) (s : State) : (usabilityChanged k s).smn = s.smn := resolveSlots_smn _ s

theorem sourceSetVerb_of_args {args : List Text} {s : State} (hs : s.saving = false)
    (ha : argsSourceSet args = some (k, c)) : sourceSetVerb args s =
      if ¬sourceCfgFits k c = true then refuse .args s else accept (sourceSetEffect k c s) := by
  simp only [sourceSetVerb, hs, ha, ite_not]
  rfl

theorem sourceCfgFits_iff : sourceCfgFits k c = true ↔
    if k = 0 then c.kind = .slate ∧ c.monitored = false else c.kind ≠ .slate := by
  unfold sourceCfgFits
  split <;> simp

end SourceSet

/-- Settles O29: an unchanged monitored flag writes the source alone; a changed one resolves again the slots that use
it, by `reresolved_usabilityChanged`. -/
theorem sourceSetEffects : Obligations.SourceSetEffects := by
  intro l tag args s h
  refine parsed_of_act rfl h (fun hs => by simp [sourceSetVerb, hs]) (fun hs ha => by simp [sourceSetVerb, hs, ha])
    fun (k, c) hs ha => checked_of_ite rfl h (sourceSetVerb_of_args hs ha) (not_congr sourceCfgFits_iff)
      fun hacc => ⟨fun hsame => ?_, fun hchanged => ?_⟩
  · rw [sourceSetEffect_of_same (s := popLine l s) hsame] at hacc
    exact accepts_of_effect rfl h hacc (setSource_only k _ _) (by simp) fun j => source_setSource (popLine l s) k j _
  · rw [sourceSetEffect_of_changed (s := popLine l s) hchanged] at hacc
    have honly := usabilityChanged_only k (withSource k c (popLine l s))
    have hslots := reresolved_usabilityChanged k (withSource k c (popLine l s))
    have hpages := usabilityChanged_eventPages k (withSource k c (popLine l s))
    have hsmn := usabilityChanged_smn k (withSource k c (popLine l s))
    have huses : usesSource (withSource k c (popLine l s)) k = usesSource s k := usesSource_congr rfl k
    generalize usabilityChanged k (withSource k c (popLine l s)) = u at *
    rw [huses] at hslots
    refine accepts_of_effect rfl h hacc (((setSource_only k _ _).mono (by simp)).trans (honly.mono (by simp))) (by simp)
      ⟨fun j => (source_congr hsmn j).trans (source_setSource (popLine l s) k j _), hpages,
        reresolved_congr hslots rfl rfl rfl rfl rfl rfl rfl⟩

end Sys2Proof.Proofs

/-! PROOFS. The evaluation of every event (R10, R11), which TIME.SET (O41), the end of a save (O44) and the second
advance (O53) share: the states first, then the effects of each change in entry order. -/

namespace Sys2Proof.Proofs

open Sys2Proof Sys2Proof.Machine Sys2Proof.Laws

/-! ## What a resolution reads and writes -/

/-- Two states agree on what a resolution reads and writes: line-up, sources, matrix queue and MAP pages. -/
structure SameLineUp (s t : State) : Prop where
  lur : t.lur = s.lur
  smn : t.smn = s.smn
  mxp : t.mxp = s.mxp
  mapPages : t.crs.mapPages = s.crs.mapPages

namespace SameLineUp

theorem refl (s : State) : SameLineUp s s := ⟨rfl, rfl, rfl, rfl⟩

variable {s t : State}

theorem resolution (h : SameLineUp s t) (k : Nat) : Machine.resolution t k = Machine.resolution s k :=
  resolution_congr (by rw [slot_congr h.lur]) (by rw [slot_congr h.lur]) (congrArg Lur.events h.lur)
    (congrArg Lur.override h.lur) h.smn

theorem resolveSlot (h : SameLineUp s t) (k : Nat) : SameLineUp (Machine.resolveSlot k s) (Machine.resolveSlot k t) where
  lur := by
    rw [resolveSlot_lur, resolveSlot_lur]
    simp only [storeResolution, State.setSlot, h.resolution, h.lur, slot_congr h.lur]
  smn := by simp [h.smn]
  mxp := by simp only [resolveSlot_mxp, h.resolution, h.mxp, slot_congr h.lur]
  mapPages := by
    obtain ⟨u, hul, huc, hu⟩ := resolveSlot_pages k s
    obtain ⟨v, hvl, hvc, hv⟩ := resolveSlot_pages k t
    have hlur : v.lur = u.lur := by
      rw [hul, hvl]
      simp only [storeResolution, State.setSlot, h.resolution, h.lur, slot_congr h.lur]
    rw [hu, hv]
    simp only [h.resolution, slot_congr h.lur]
    split
    · simp only [rebuildMap, mapPage_congr hlur, huc, hvc, h.mapPages]
    · rw [huc, hvc, h.mapPages]

theorem mapPageHeld (h : SameLineUp s t) (n : Nat) : t.mapPageHeld n = s.mapPageHeld n := by
  simp only [State.mapPageHeld, h.mapPages]

end SameLineUp

/-! ## The effects of one change (R11) -/

section EventChanged

variable (k : Nat) (e : Event) (new : EventState) (s : State)

/-- EVENT attention, the slot and the page, and the wave of an event that ended. -/
theorem eventChanged_eq : eventChanged k e new s =
    let t := reshown (e.state = .showing ∨ new = .showing) k e.cfg.slot (raise .event s)
    if new = .ended then appendWave (.event e.cfg.id) t else t := rfl

theorem eventChanged_events : (eventChanged k e new s).lur.events = s.lur.events := by
  rw [eventChanged_eq]
  dsimp only
  split <;> simp

theorem eventChanged_aen : (eventChanged k e new s).aen = { s.aen with
    waves := if new = .ended then appendedWaves (.event e.cfg.id) s.aen.waves else s.aen.waves } := by
  rw [eventChanged_eq]
  dsimp only
  split
  · rw [appendWave, State.setWaves, reshown_aen, raise_aen]
  · rw [reshown_aen, raise_aen]

theorem eventChanged_attn (j : Kind) :
    (eventChanged k e new s).attn j = if j = .event then (s.attn .event).raised else s.attn j := by
  refine (attn_congr ?_ j).trans (attn_raise s .event j)
  rw [eventChanged_eq]
  dsimp only
  split <;> simp

theorem eventChanged_pagesOnly : PagesOnly s (eventChanged k e new s) := by
  have hslot : PagesOnly s (if e.state = .showing ∨ new = .showing then resolveSlot e.cfg.slot (raise .event s)
      else raise .event s) := by
    split
    · exact resolveSlot_pagesOnly _ (raise .event s)
    · rfl
  have hpage := pagesOnly_rebuildEvents (eventPageOf k) hslot
  rw [eventChanged_eq]
  dsimp only
  split <;> exact hpage

theorem eventChanged_eventPage : RebuiltEvents (k / 8) s (eventChanged k e new s) := by
  have hpage := rebuiltEvents_reshown (e.state = .showing ∨ new = .showing) k e.cfg.slot (raise .event s)
  rw [eventChanged_eq]
  dsimp only
  split <;> exact hpage

/-- The change resolves its slot again when the event began or ended showing, and the line-up sees no more of it. -/
theorem SameLineUp.eventChanged {t : State} (h : SameLineUp t s) : SameLineUp
    (if e.state = .showing ∨ new = .showing then Machine.resolveSlot e.cfg.slot t else t)
    (Machine.eventChanged k e new s) := by
  have hraise : SameLineUp t (raise .event s) := ⟨h.lur, h.smn, h.mxp, h.mapPages⟩
  have hslot : SameLineUp (if e.state = .showing ∨ new = .showing then Machine.resolveSlot e.cfg.slot t else t)
      (if e.state = .showing ∨ new = .showing then Machine.resolveSlot e.cfg.slot (raise .event s)
        else raise .event s) := by
    split
    · exact hraise.resolveSlot _
    · exact hraise
  obtain ⟨hlur, hsmn, hmxp, hpages⟩ := hslot
  rw [eventChanged_eq]
  dsimp only
  by_cases hend : new = .ended
  · rw [if_pos hend]
    exact ⟨hlur, hsmn, hmxp, hpages⟩
  · rw [if_neg hend]
    exact ⟨hlur, hsmn, hmxp, hpages⟩

end EventChanged

/-! ## The effects of every change, in entry order -/

/-- A change: the entry, its event as it was, and the event's new state. -/
abbrev Change := Nat × Event × EventState

/-- The effects of the changes in turn. -/
def applyChanges (cs : List Change) (s : State) : State := cs.foldl (fun s c => eventChanged c.1 c.2.1 c.2.2 s) s

/-- The slots that the changes resolve again, in turn. -/
def changedSlots (cs : List Change) : List Nat :=
  cs.filterMap fun c => if c.2.1.state = .showing ∨ c.2.2 = .showing then some c.2.1.cfg.slot else none

/-- The ids of the events that end, in turn. -/
def endedIds (cs : List Change) : List Nat := cs.filterMap fun c => if c.2.2 = .ended then some c.2.1.cfg.id else none

section ApplyChanges

theorem applyChanges_events (cs : List Change) (s : State) : (applyChanges cs s).lur.events = s.lur.events := by
  induction cs generalizing s with
  | nil => rfl
  | cons c cs ih => exact (ih _).trans (eventChanged_events ..)

theorem applyChanges_aen (cs : List Change) (s : State) : (applyChanges cs s).aen = { s.aen with
    waves := (endedIds cs).foldl (fun ws id => appendedWaves (.event id) ws) s.aen.waves } := by
  induction cs generalizing s with
  | nil => rfl
  | cons c cs ih =>
    refine (ih _).trans ?_
    rw [eventChanged_aen]
    by_cases hend : c.2.2 = .ended <;> simp [endedIds, hend]

theorem applyChanges_attn (cs : List Change) (s : State) (j : Kind) :
    (applyChanges cs s).attn j = if cs ≠ [] ∧ j = .event then (s.attn .event).raised else s.attn j := by
  induction cs generalizing s with
  | nil => rfl
  | cons c cs ih =>
    refine (ih _).trans ?_
    simp only [eventChanged_attn]
    by_cases hj : j = .event <;> simp [hj]

theorem applyChanges_pagesOnly (cs : List Change) (s : State) : PagesOnly s (applyChanges cs s) := by
  induction cs generalizing s with
  | nil => rfl
  | cons c cs ih =>
    have hc := eventChanged_pagesOnly c.1 c.2.1 c.2.2 s
    have hcs := ih (eventChanged c.1 c.2.1 c.2.2 s)
    exact pagesOnly_trans hc hcs

theorem applyChanges_eventPageHeld (cs : List Change) (s : State) (n : Nat) : (applyChanges cs s).eventPageHeld n
    = if ∃ c ∈ cs, c.1 / 8 = n then eventPage s n else s.eventPageHeld n := by
  induction cs generalizing s with
  | nil => simp [applyChanges]
  | cons c cs ih =>
    have hev := eventChanged_events c.1 c.2.1 c.2.2 s
    have hpage := eventChanged_eventPage c.1 c.2.1 c.2.2 s n
    refine (ih _).trans ?_
    simp only [hpage, eventPage_congr hev, List.exists_mem_cons_iff]
    by_cases hc : c.1 / 8 = n
    · simp [hc]
    · simp only [hc, Ne.symm hc, false_or, if_false]

theorem sameLineUp_applyChanges (cs : List Change) {s t : State} (h : SameLineUp t s) :
    SameLineUp (resolveSlots (changedSlots cs) t) (applyChanges cs s) := by
  induction cs generalizing s t with
  | nil => exact h
  | cons c cs ih =>
    have hc := ih (SameLineUp.eventChanged c.1 c.2.1 c.2.2 s h)
    by_cases hshow : c.2.1.state = .showing ∨ c.2.2 = .showing
    · have hcons : changedSlots (c :: cs) = c.2.1.cfg.slot :: changedSlots cs := by simp [changedSlots, hshow]
      rw [if_pos hshow] at hc
      rw [hcons]
      exact hc
    · have hcons : changedSlots (c :: cs) = changedSlots cs := by simp [changedSlots, hshow]
      rw [if_neg hshow] at hc
      rw [hcons]
      exact hc

end ApplyChanges

/-! ## The states (R10) -/

/-- The changed states written in turn. -/
def writeChanges (cs : List Change) (s : State) : State :=
  cs.foldl (fun s c => s.setEvent c.1 (some { c.2.1 with state := c.2.2 })) s

theorem writeChanges_only (cs : List Change) (s : State) : OnlyChanges [.lur] s (writeChanges cs s) :=
  OnlyChanges.foldl _ (fun s _ => setEvent_only _ _ s) cs s

theorem writeChanges_aen (cs : List Change) (s : State) : (writeChanges cs s).aen = s.aen := by
  induction cs generalizing s with
  | nil => rfl
  | cons c cs ih => exact ih _

theorem writeChanges_slots (cs : List Change) (s : State) : (writeChanges cs s).lur.slots = s.lur.slots := by
  induction cs generalizing s with
  | nil => rfl
  | cons c cs ih => exact ih _

theorem writeChanges_override (cs : List Change) (s : State) :
    (writeChanges cs s).lur.override = s.lur.override := by
  induction cs generalizing s with
  | nil => rfl
  | cons c cs ih => exact ih _

/-- An entry written with the same event each time holds it; an entry not written is as it was. -/
theorem writeChanges_event {cs : List Change} {s : State} {g : Nat → Event} {k : Nat}
    (h : ∀ c ∈ cs, { c.2.1 with state := c.2.2 } = g c.1) :
    (writeChanges cs s).event k = if ∃ c ∈ cs, c.1 = k then some (g k) else s.event k := by
  induction cs generalizing s with
  | nil => simp [writeChanges]
  | cons c cs ih =>
    refine (ih fun d hd => h d (by simp [hd])).trans ?_
    rw [event_setEvent, h c (by simp)]
    simp only [List.exists_mem_cons_iff]
    by_cases hk : c.1 = k
    · simp [hk]
    · simp only [hk, Ne.symm hk, false_or, if_false]

/-- The event changes its state when evaluated at `now` (R10). -/
def Changes (now : Word) (e : Event) : Prop := e.state ≠ .ended ∧ eventStateAt true now e.cfg ≠ e.state

section Evaluate

variable {now : Word} {s : State} (hset : s.tmb.timeSet = true) (hnow : s.tmb.station = now)

include hset hnow

theorem mem_eventChanges {c : Change} : c ∈ eventChanges s ↔
    s.event c.1 = some c.2.1 ∧ Changes now c.2.1 ∧ c.2.2 = eventStateAt true now c.2.1.cfg := by
  obtain ⟨k, e, new⟩ := c
  simp only [eventChanges, List.mem_filterMap, hset, hnow, Changes]
  constructor
  · rintro ⟨⟨j, d⟩, hmem, hc⟩
    split_ifs at hc with hkeep
    cases hc
    exact ⟨mem_eventEntries.mp hmem, not_or.mp hkeep, rfl⟩
  · rintro ⟨hev, hch, rfl⟩
    exact ⟨(k, e), mem_eventEntries.mpr hev, if_neg (not_or.mpr hch)⟩

theorem changedSlots_eventChanges : changedSlots (eventChanges s) = slotsTurned now s := by
  rw [changedSlots, eventChanges, slotsTurned, List.filterMap_filterMap]
  refine List.filterMap_congr fun e _ => ?_
  dsimp only
  rw [hset, hnow]
  by_cases hkeep : e.2.state = .ended ∨ eventStateAt true now e.2.cfg = e.2.state
  · rw [if_pos hkeep, if_neg fun h => by tauto]
    rfl
  · rw [if_neg hkeep]
    obtain ⟨hend, hne⟩ := not_or.mp hkeep
    simp [hend, hne]

theorem endedIds_eventChanges : endedIds (eventChanges s) = s.eventEntries.filterMap fun e =>
    if e.2.state ≠ .ended ∧ eventStateAt true now e.2.cfg = .ended then some e.2.cfg.id else none := by
  rw [endedIds, eventChanges, List.filterMap_filterMap]
  refine List.filterMap_congr fun e _ => ?_
  dsimp only
  rw [hset, hnow]
  by_cases hkeep : e.2.state = .ended ∨ eventStateAt true now e.2.cfg = e.2.state
  · rw [if_pos hkeep, if_neg]
    · rfl
    · rintro ⟨hne, hend⟩
      rcases hkeep with h | h
      · exact hne h
      · exact hne (h.symm.trans hend)
  · rw [if_neg hkeep]
    simp [(not_or.mp hkeep).1]

theorem eventsAt_writeChanges : EventsAt now s (writeChanges (eventChanges s) s) := by
  intro k
  let g : Nat → Event := fun j => ((s.event j).map fun e => { e with state := eventStateAt true now e.cfg }).getD
    ⟨⟨0, 0, 0, 0, 0, 0, 0, false⟩, .ended, false, false⟩
  have hg : ∀ c ∈ eventChanges s, { c.2.1 with state := c.2.2 } = g c.1 := by
    intro c hc
    obtain ⟨hev, -, hnew⟩ := (mem_eventChanges hset hnow).mp hc
    simp [g, hev, hnew]
  rw [writeChanges_event hg]
  cases hev : s.event k with
  | none =>
    rw [if_neg]
    · rfl
    · rintro ⟨c, hc, rfl⟩
      obtain ⟨hsome, -⟩ := (mem_eventChanges hset hnow).mp hc
      rw [hev] at hsome
      cases hsome
  | some e =>
    have hiff : (∃ c ∈ eventChanges s, c.1 = k) ↔ Changes now e := by
      constructor
      · rintro ⟨c, hc, rfl⟩
        obtain ⟨hsome, hch, -⟩ := (mem_eventChanges hset hnow).mp hc
        rw [hev] at hsome
        exact Option.some.inj hsome ▸ hch
      · exact fun hch => ⟨(k, e, eventStateAt true now e.cfg), (mem_eventChanges hset hnow).mpr ⟨hev, hch, rfl⟩, rfl⟩
    by_cases hch : Changes now e
    · rw [if_pos (hiff.mpr hch)]
      simp [g, hev, hch.1]
    · rw [if_neg (mt hiff.mp hch)]
      by_cases hend : e.state = .ended
      · simp [hend]
      · have hsame : eventStateAt true now e.cfg = e.state := by
          by_contra hne
          exact hch ⟨hend, hne⟩
        simp [hend, hsame]

/-- The slots that turn are resolved again, each once its events are set (R6, R11). -/
theorem sameLineUp_evaluateEvents : SameLineUp
    (resolveSlots (slotsTurned now s) (writeChanges (eventChanges s) s)) (evaluateEvents s) := by
  rw [← changedSlots_eventChanges hset hnow]
  exact sameLineUp_applyChanges (eventChanges s) (.refl (writeChanges (eventChanges s) s))

theorem exists_change {p : Nat → Prop} : (∃ c ∈ eventChanges s, p c.1) ↔ ∃ k e, s.event k = some e ∧ Changes now e ∧ p k := by
  constructor
  · rintro ⟨c, hc, hp⟩
    obtain ⟨hev, hch, -⟩ := (mem_eventChanges hset hnow).mp hc
    exact ⟨c.1, c.2.1, hev, hch, hp⟩
  · rintro ⟨k, e, hev, hch, hp⟩
    exact ⟨(k, e, eventStateAt true now e.cfg), (mem_eventChanges hset hnow).mpr ⟨hev, hch, rfl⟩, hp⟩

theorem eventChanges_ne_nil : eventChanges s ≠ [] ↔ ∃ k e, s.event k = some e ∧ Changes now e := by
  have hmem : eventChanges s ≠ [] ↔ ∃ c ∈ eventChanges s, True :=
    ⟨fun h => (List.exists_mem_of_ne_nil _ h).imp fun _ hc => ⟨hc, trivial⟩, fun ⟨_, hc, _⟩ => List.ne_nil_of_mem hc⟩
  simpa using hmem.trans (exists_change hset hnow (p := fun _ => True))

/-- The matrix queue and the MAP pages follow the slots that turned, as `Reresolved` says of slots named (R6, R20). -/
theorem evaluateEvents_slots :
    let t := evaluateEvents s
    let slated := fun k => ((t.slot k).resolved == 0) ≠ ((s.slot k).resolved == 0)
    (∀ j, if j ∈ slotsTurned now s then Resolved j t ∧ KeepsSlot j s t else t.slot j = s.slot j)
      ∧ t.mxp = { s.mxp with queue := ordersPut ((slotsTurned now s).filter fun k =>
          (s.slot k).cfg.enabled && (t.slot k).resolved != (s.slot k).resolved) t s.mxp.queue }
      ∧ (∀ k, k ∈ slotsTurned now s → slated k → t.mapPageHeld (mapPageOf k) = mapPage t (mapPageOf k))
      ∧ ∀ n, (∀ k, k ∈ slotsTurned now s → mapPageOf k = n → ¬slated k) → t.mapPageHeld n = s.mapPageHeld n := by
  intro t slated
  let s₁ := writeChanges (eventChanges s) s
  have hline : SameLineUp (resolveSlots (slotsTurned now s) s₁) t := sameLineUp_evaluateEvents hset hnow
  have hslots : s₁.slot = s.slot := by
    funext k
    simp only [State.slot, s₁, writeChanges_slots]
  have hmxp : s₁.mxp = s.mxp := writeChanges_only (eventChanges s) s .mxp (by simp)
  have hcrs : s₁.crs = s.crs := writeChanges_only (eventChanges s) s .crs (by simp)
  generalize slotsTurned now s = ks at *
  have hslot : ∀ j, t.slot j = (resolveSlots ks s₁).slot j := fun j => by rw [slot_congr hline.lur]
  have hres : ∀ j, (t.slot j).resolved = if j ∈ ks then (resolution s₁ j).1 else (s.slot j).resolved := fun j => by
    rw [hslot, resolveSlots_resolved, hslots]
  have hslated : ∀ k ∈ ks, (slatesAgain s₁ k ↔ slated k) := fun k hk => by
    simp only [slatesAgain, slated, hres, hk, if_true, hslots]
  refine ⟨fun j => ?_, ?_, fun k hk hs => ?_, fun n hn => ?_⟩
  · split
    · next hj =>
      refine ⟨resolved_congr (resolved_resolveSlots hj) hline.lur hline.smn, ?_⟩
      simpa only [KeepsSlot, hslot, hslots] using keepsSlot_resolveSlots (ks := ks) (s := s₁) j
    · next hj => rw [hslot, resolveSlots_slot, if_neg hj, hslots]
  · have hfilter : ks.filter (ordersAgain s₁)
        = ks.filter fun k => (s.slot k).cfg.enabled && (t.slot k).resolved != (s.slot k).resolved :=
      List.filter_congr fun k hk => by simp only [ordersAgain, hres, hk, if_true, hslots]
    rw [hline.mxp, resolveSlots_mxp, hfilter, hmxp]
    simp only [ordersPut, hslot]
  · rw [hline.mapPageHeld, mapPage_congr hline.lur]
    exact resolveSlots_page_current ks s₁ _ (.inl ⟨k, hk, rfl, (hslated k hk).mpr hs⟩)
  · rw [hline.mapPageHeld, resolveSlots_page_kept ks s₁ n fun k hk hp => mt (hslated k hk).mp (hn k hk hp)]
    simp only [State.mapPageHeld, hcrs]

end Evaluate

theorem evaluateEvents_of_nil {s : State} (h : eventChanges s = []) : evaluateEvents s = s := by
  simp only [evaluateEvents, h, List.foldl_nil]

/-- Every event evaluated at station time now (R10, R11). -/
theorem eventsEvaluated_evaluateEvents {now : Word} {s : State} (hset : s.tmb.timeSet = true)
    (hnow : s.tmb.station = now) : EventsEvaluated now s (evaluateEvents s) := by
  have hne := eventChanges_ne_nil hset hnow
  have hpage := fun n => exists_change hset hnow (p := fun k => k / 8 = n)
  have hstates := eventsAt_writeChanges hset hnow
  obtain ⟨hslots, hmxp, hslated, hkept⟩ := evaluateEvents_slots hset hnow
  have hcrs : (writeChanges (eventChanges s) s).crs = s.crs := writeChanges_only _ s .crs (by simp)
  have hattn : (writeChanges (eventChanges s) s).ofp.attn = s.ofp.attn := writeChanges_only _ s .attn (by simp)
  have ht : evaluateEvents s = applyChanges (eventChanges s) (writeChanges (eventChanges s) s) := rfl
  have hev := applyChanges_events (eventChanges s) (writeChanges (eventChanges s) s)
  have hover : (evaluateEvents s).lur.override = s.lur.override := by
    rw [(sameLineUp_evaluateEvents hset hnow).lur, resolveSlots_override, writeChanges_override]
  have haen := (applyChanges_aen (eventChanges s) (writeChanges (eventChanges s) s)).trans
    (by rw [writeChanges_aen, endedIds_eventChanges hset hnow])
  have hpages : PagesOnly s (evaluateEvents s) := by
    have h := applyChanges_pagesOnly (eventChanges s) (writeChanges (eventChanges s) s)
    rwa [PagesOnly, hcrs] at h
  have hkind := fun j => (applyChanges_attn (eventChanges s) (writeChanges (eventChanges s) s) j)
  have hheld := applyChanges_eventPageHeld (eventChanges s) (writeChanges (eventChanges s) s)
  simp only [attn_congr hattn] at hkind
  simp only [State.eventPageHeld, hcrs, ← eventPage_congr hev] at hheld
  rw [← ht] at hev haen hkind hheld
  refine ⟨fun k => by rw [event_congr hev, hstates k], hover, by rw [haen], hpages, by rw [hmxp], fun hch j => ?_,
    fun hch => ?_, hslots, congrArg Mxp.queue hmxp, hslated, hkept, fun k e hk hch => ?_, fun n hn => ?_,
    congrArg Aen.waves haen⟩
  · rw [hkind j]
    by_cases hj : j = .event
    · subst hj
      simp [hne.mpr hch]
    · simp [hj]
  · rw [evaluateEvents_of_nil (by_contra fun h => hch (hne.mp h))]
    exact ⟨raised_nil s, rfl, rfl, rfl⟩
  · exact (hheld (k / 8)).trans (if_pos ((hpage _).mpr ⟨k, e, hk, hch, rfl⟩))
  · exact (hheld n).trans (if_neg fun hc => by
      obtain ⟨k, e, hk, hch, hp⟩ := (hpage n).mp hc
      exact hn k e hk hch hp)

/-- The evaluation is seen in the line-up, the sources, the matrix queue, the carousel, the engine and the attention
set alone. -/
theorem eventsEvaluated_congr {now : Word} {s s' t t' : State} (h : EventsEvaluated now s t) (hsl : s'.lur = s.lur)
    (hsm : s'.mxp = s.mxp) (hsc : s'.crs = s.crs) (hsa : s'.aen = s.aen) (hsk : ∀ k, s'.attn k = s.attn k)
    (htl : t'.lur = t.lur) (htn : t'.smn = t.smn) (htm : t'.mxp = t.mxp) (htc : t'.crs = t.crs)
    (hta : t'.aen = t.aen) (htk : ∀ k, t'.attn k = t.attn k) : EventsEvaluated now s' t' := by
  have hes : s'.event = s.event := event_congr (congrArg Lur.events hsl)
  have het : t'.event = t.event := event_congr (congrArg Lur.events htl)
  have hentries : s'.eventEntries = s.eventEntries := by simp only [State.eventEntries, hsl, hes]
  have hturned : slotsTurned now s' = slotsTurned now s := by simp only [slotsTurned, hentries]
  have hevp : eventPage t' = eventPage t := funext fun n => eventPage_congr (congrArg Lur.events htl) n
  have hmap : mapPage t' = mapPage t := funext fun n => mapPage_congr htl n
  have hres : ∀ j, Resolved j t → Resolved j t' := fun j hj => resolved_congr hj htl htn
  obtain ⟨hstates, hover, haen, hpages, hmxp, hraised, hnone, hslots, hqueue, hslated, hkept, hpage, hother, hwaves⟩ := h
  simp only [EventsEvaluated, EventsAt, PagesOnly, Raised, KeepsSlot, State.mapPageHeld, State.eventPageHeld, ordersPut,
    hturned, hentries, hes, het, hevp, hmap, slot_congr hsl, slot_congr htl, hsl, hsm, hsc, hsa, hsk, htl, htm, htc, hta,
    htk]
  refine ⟨hstates, hover, haen, hpages, hmxp, hraised, hnone, fun j => ?_, hqueue, hslated, hkept, hpage, hother,
    hwaves⟩
  have hj := hslots j
  split_ifs at hj ⊢ with hmem
  · exact ⟨hres j hj.1, hj.2⟩
  · exact hj

end Sys2Proof.Proofs

/-! PROOFS. Time: TIME.SET (O41), the second advance and the cycles that count seconds (O53), and the reference monitor
(O54). -/

namespace Sys2Proof.Proofs

open Sys2Proof Sys2Proof.Machine Sys2Proof.Laws

/-! ## TIME.SET (R155) -/

theorem attn_reply (l : Lane) (o : OutLine) (s : State) (k : Kind) : (emit o (popLine l s)).attn k = s.attn k :=
  attn_popLine l s k

/-- The Time Base as TIME.SET leaves it. -/
def withTime (now : Word) (s : State) : State :=
  s.setTmb { s.tmb with station := now, timeSet := true, uncertain := false }

theorem timeSetEffect_eq (now : Word) (s : State) : timeSetEffect now s = evaluateEvents (withTime now s) := rfl

theorem evaluateEvents_tmb (s : State) : (evaluateEvents s).tmb = s.tmb := evaluateEvents_only s .tmb (by simp)

theorem timeSetVerb_of_unread {args : List Text} {s : State} (hs : s.saving = false) (ha : one argWord args = none) :
    timeSetVerb args s = refuse .args s := by
  rcases args with _ | ⟨a, _ | ⟨b, rest⟩⟩
  · simp [timeSetVerb, hs]
  · have ha : argWord a = none := ha
    simp [timeSetVerb, hs, ha]
  · simp [timeSetVerb, hs]

theorem timeSetVerb_of_args {args : List Text} {s : State} {now : Word} (hs : s.saving = false)
    (ha : one argWord args = some now) : timeSetVerb args s = accept (timeSetEffect now s) := by
  obtain ⟨a, rfl, hread⟩ := one_eq_some.mp ha
  simp [timeSetVerb, hs, hread]

/-- Settles O41: the Time Base is written, and then every event is evaluated at the time set. -/
theorem timeSetEffects : Obligations.TimeSetEffects := by
  intro l tag args s h
  refine parsed_of_act rfl h (fun hs => by simp [timeSetVerb, hs]) (fun hs ha => timeSetVerb_of_unread hs ha)
    fun now hs ha => ?_
  have hacc := timeSetVerb_of_args hs ha
  rw [timeSetEffect_eq] at hacc
  have honly := evaluateEvents_only (withTime now (popLine l s))
  have htmb := evaluateEvents_tmb (withTime now (popLine l s))
  have hev := eventsEvaluated_evaluateEvents (now := now) (s := withTime now (popLine l s)) rfl rfl
  generalize evaluateEvents (withTime now (popLine l s)) = u at *
  exact accepts_of_effect rfl h hacc (((setTmb_only _ _).mono (by simp)).trans (honly.mono (by simp))) (by simp)
    ⟨htmb, eventsEvaluated_congr hev rfl rfl rfl rfl (fun k => (attn_popLine l s k).symm) rfl rfl rfl rfl rfl
      fun _ => rfl⟩

/-! ## The second advance (R154) -/

theorem settleSecond_of_nothingOwed {s : State} (h : NothingOwed s) : settleSecond s = s := by
  obtain ⟨hexpiry, halert, hcycle⟩ := h
  simp [settleSecond, takeExpiry, takeAlert, takeCycleExpiry, hexpiry, halert, hcycle]

theorem countSecond_only (s : State) : OnlyChanges [.tmb] s (countSecond s) := setTmb_only _ s

theorem countCycle_only (s : State) : OnlyChanges [.ppl] s (countCycle s) := .ite (only_ppl _ s) (.refl _ s)

theorem countCycle_ppl (s : State) : (countCycle s).ppl =
    if s.sst.runState = .run then { s.ppl with timer := s.ppl.timer + 1 } else s.ppl := by
  unfold countCycle
  split <;> rfl

theorem countCycle_aen (s : State) : (countCycle s).aen = s.aen := by
  unfold countCycle
  split <;> rfl

/-- What the second advance leaves, nothing of the second past being owed: both counts, and then the events. -/
theorem secondAdvance_eq {s : State} (h : NothingOwed s) :
    secondAdvance s = countCycle (evaluateIfSet (countSecond s)) := by
  rw [secondAdvance, settleSecond_of_nothingOwed h]

theorem evaluates_iff {s : State} :
    (s.tmb.timeSet && !s.saving) = true ↔ s.tmb.timeSet = true ∧ s.sst.runState ≠ .saving := by
  simp [State.saving]

theorem happens_secondAdvance {s : State} (h : NothingOwed s) (hdue : s.tmb.advanceDue = true) :
    Happens .secondAdvance s [.tmb, .ppl, .lur, .mxp, .crs, .attn, .waves] fun t =>
      t.tmb = { s.tmb with advanceDue := false, run := s.tmb.run + 1, station := s.tmb.station + 1 }
        ∧ t.ppl = (if s.sst.runState = .run then { s.ppl with timer := s.ppl.timer + 1 } else s.ppl)
        ∧ (s.tmb.timeSet = true ∧ s.sst.runState ≠ .saving → EventsEvaluated (s.tmb.station + 1) s t)
        ∧ (¬(s.tmb.timeSet = true ∧ s.sst.runState ≠ .saving) → OnlyChanges [.tmb, .ppl, .marks] s t) := by
  have hexec : exec .secondAdvance s = done (countCycle (evaluateIfSet (countSecond s))) :=
    (if_pos hdue).trans (congrArg done (secondAdvance_eq h))
  have hev : s.tmb.timeSet = true ∧ s.sst.runState ≠ .saving → EventsEvaluated (s.tmb.station + 1) s
      (countCycle (evaluateIfSet (countSecond s))).report := fun hset => by
    have heval : evaluateIfSet (countSecond s) = evaluateEvents (countSecond s) := if_pos (evaluates_iff.mpr hset)
    have hspec := eventsEvaluated_evaluateEvents (now := s.tmb.station + 1) (s := countSecond s) hset.1 rfl
    have hcycle := countCycle_only (evaluateEvents (countSecond s))
    rw [heval]
    exact eventsEvaluated_congr hspec rfl rfl rfl rfl (fun _ => rfl) (hcycle .lur (by simp)) (hcycle .smn (by simp))
      (hcycle .mxp (by simp)) (hcycle .crs (by simp)) (countCycle_aen _) (attn_congr (hcycle .attn (by simp)))
  have hcounted := countSecond_only s
  have heval := evaluateIfSet_only (countSecond s)
  have hcycle := countCycle_only (evaluateIfSet (countSecond s))
  have honly : OnlyChanges [.tmb, .ppl, .lur, .mxp, .crs, .attn, .waves] s
      (countCycle (evaluateIfSet (countSecond s))) :=
    (hcounted.mono (by simp)).trans ((heval.mono (by simp)).trans (hcycle.mono (by simp)))
  refine happens_done hexec honly ⟨?_, ?_, hev, fun hset => ?_⟩
  · exact Eq.trans (hcycle .tmb (by simp)) (heval .tmb (by simp))
  · have hppl : (evaluateIfSet (countSecond s)).ppl = s.ppl := heval .ppl (by simp)
    have hsst : (evaluateIfSet (countSecond s)).sst = s.sst := heval .sst (by simp)
    rw [report_ppl, countCycle_ppl, hppl, hsst]
  · have hsame : evaluateIfSet (countSecond s) = countSecond s := if_neg (mt evaluates_iff.mp hset)
    rw [hsame] at hcycle ⊢
    exact (hcounted.mono (by simp)).trans ((hcycle.mono (by simp)).trans ((report_only _).mono (by simp)))

/-! ## The refresh counter and the poll cycle (R88, R110, R111) -/

theorem happens_refreshCounterExpiry {s : State} (hload : s.sst.runState ≠ .loading) (hcounted : s.rsw.counted = false)
    (hdue : s.params.refreshStep ≤ s.rsw.counter + 1) :
    Happens .refreshCounterExpiry s [.rsw] fun t =>
      t.rsw = { s.rsw with counter := 0, request := true, counted := true } := by
  have hcomes : s.expiryComes = true := by simp [State.expiryComes, State.countsRefresh, hload, hcounted, hdue]
  have hcount : refreshCount s = { s with rsw := { s.rsw with counter := 0, request := true } } := if_pos hdue
  refine happens_done (t := { s with rsw := { s.rsw with counter := 0, request := true, counted := true } })
    ((if_pos hcomes).trans ?_) (only_rsw _ s) rfl
  rw [hcount]

theorem happens_pollCycleExpiry {s : State} (hrun : s.sst.runState = .run) (hdue : s.params.pollCycle ≤ s.ppl.timer) :
    Happens .pollCycleExpiry s [.ppl] fun t =>
      t.ppl = if s.ppl.running then { s.ppl with timer := 0, heldExpiry := true }
        else { s.ppl with timer := 0, running := true, cursor := 0 } := by
  have hcycle : s.cycleDue = true := by simp [State.cycleDue, hrun, hdue]
  refine happens_done (t := { s with ppl := if s.ppl.running then { s.ppl with timer := 0, heldExpiry := true }
        else { s.ppl with timer := 0, running := true, cursor := 0 } }) (congrArg done ((if_pos hcycle).trans ?_))
    (only_ppl _ s) rfl
  cases s.ppl.running <;> rfl

theorem hasTransponder_iff {k : UnitKind} : hasTransponder k = true ↔ k = .trunkAmp ∨ k = .bridger ∨ k = .lineExt := by
  cases k <;> simp [hasTransponder]

theorem pollable_iff {r : PlantUnit} : r.pollable = true ↔
    (r.cfg.kind = .trunkAmp ∨ r.cfg.kind = .bridger ∨ r.cfg.kind = .lineExt) ∧ r.cfg.inService = true
      ∧ r.state ≠ .excused := by
  simp [PlantUnit.pollable, hasTransponder_iff, and_assoc]

theorem underSilent_iff {s : State} {u : Nat} : s.underSilent u = true ↔
    ∃ o ∈ s.olz.log, o.state = .opened ∧ o.kind = .silent ∧ o.root ≠ u ∧ s.atOrBelow u o.root = true := by
  simp [State.underSilent, State.below, and_assoc, @eq_comm _ u]

section BeginPoll

variable {s : State}

theorem beginPoll_of_pollable {a : Addr} (hp : (s.unit s.ppl.cursor).pollable = true)
    (ha : (s.unit s.ppl.cursor).cfg.address = some a) : beginPoll s = s.setPoll (some ⟨s.ppl.cursor, a,
      if s.underSilent s.ppl.cursor then 1 else s.params.pollTries, 1, false, 0, false⟩) := by
  simp only [beginPoll, hp, ha]

theorem beginPoll_of_not_pollable (hp : ¬(s.unit s.ppl.cursor).pollable = true) :
    beginPoll s = { s with ppl := { s.ppl with cursor := s.ppl.cursor + 1 } } := by
  have hp := Bool.not_eq_true _ ▸ hp
  simp only [beginPoll, hp]

end BeginPoll

/-- Settles O53: each event by its own lemma, and the poll's beginning by whether the unit at the cursor is pollable. -/
theorem secondsAndCycles : Obligations.SecondsAndCycles := by
  refine ⟨fun s h hdue => happens_secondAdvance h hdue, fun s => happens_refreshCounterExpiry,
    fun s => happens_pollCycleExpiry, fun s hrun hrunning hpoll hcursor => ?_, fun s hrun hrunning hpoll hcursor => ?_⟩
  · have hcan : s.canBeginPoll = true := by simp [State.canBeginPoll, hrun, hrunning, hpoll, hcursor]
    refine ⟨fun a hp ha => ?_, fun hp => ?_⟩
    · have hbegin := beginPoll_of_pollable (pollable_iff.mpr hp) ha
      refine happens_done ((if_pos hcan).trans (congrArg done hbegin)) (setPoll_only _ s) ⟨0, ?_⟩
      simp only [underSilent_iff]
      rfl
    · have hpass := beginPoll_of_not_pollable (mt pollable_iff.mp hp)
      exact happens_done ((if_pos hcan).trans (congrArg done hpass)) (only_ppl _ s) rfl
  · have hends : s.cycleEnds = true := by simp [State.cycleEnds, hrun, hrunning, hpoll, hcursor]
    have hcycle : endCycle s = { s with ppl := if s.ppl.heldExpiry then { s.ppl with heldExpiry := false, cursor := 0 }
        else { s.ppl with running := false } } := by
      cases hheld : s.ppl.heldExpiry <;> simp [endCycle, startCycle, hheld, hrunning]
    exact happens_done ((if_pos hends).trans (congrArg done hcycle)) (only_ppl _ s) rfl

/-! ## The reference monitor (R157, R158, R160) -/

theorem windowDue_iff {t : Tmb} : t.windowDue = true ↔ t.startup = true ∧ 1000 ≤ t.startupSamples := by
  simp [Tmb.windowDue]

theorem returnDue_iff {t : Tmb} :
    t.returnDue = true ↔ t.startup = false ∧ t.clock = .internal ∧ 1000 ≤ t.goodRun := by
  simp [Tmb.returnDue, and_assoc]

/-- A sample is judged at once when the samples before it owe nothing (log 3). -/
theorem exec_monitorSample {s : State} (hwindow : ¬s.tmb.windowDue = true) (hreturn : ¬s.tmb.returnDue = true) :
    exec .monitorSample s = .next (takeSample s) := by
  have hclose : closeWindow s = s := if_neg hwindow
  have href : referenceReturn s = s := if_neg hreturn
  show Host.Outcome.next (takeSample (referenceReturn (closeWindow s))) = _
  rw [hclose, href]

/-- Settles O54: a sample is judged by the clock selection and the edge, and what the samples owe by whether it is
due. -/
theorem referenceMonitor : Obligations.ReferenceMonitor := by
  refine ⟨fun s => happens_of_only rfl (setTmb_only _ s) rfl, fun s hclock hwindow => ?_,
    fun s hclock hwindow hrun => ?_, fun s hstartup hsamples => ?_, fun s hstartup hclock hrun => ?_⟩
  · have hexec := exec_monitorSample (mt windowDue_iff.mp hwindow) (s := s)
      (fun h => by simp [returnDue_iff, hclock] at h)
    have hsample : takeSample s = sampleReference s := by simp only [takeSample, hclock]
    rw [hsample] at hexec
    refine ⟨fun hedge => ?_, fun hedge => ?_⟩
    · exact happens_of_only (hexec.trans (congrArg _ (if_pos hedge))) (setTmb_only _ s) rfl
    · exact happens_of_only (hexec.trans (congrArg _ (if_neg (by simp [hedge]))))
        (((setTmb_only _ s).mono (by simp)).trans ((raise_only _ _).mono (by simp)))
        ⟨rfl, raised_raise .timebase s _ rfl⟩
  · have hexec := exec_monitorSample (mt windowDue_iff.mp hwindow) (s := s) fun h => by
      obtain ⟨hstart, -, hgood⟩ := returnDue_iff.mp h
      rcases hrun with hrun | hrun
      · simp [hstart] at hrun
      · omega
    have hsample : takeSample s = sampleInternal s := by simp only [takeSample, hclock]
    exact happens_of_only (hexec.trans (congrArg _ hsample)) (setTmb_only _ s) rfl
  · have hclose : closeWindow s = s.setTmb s.tmb.closeWindow := if_pos (windowDue_iff.mpr ⟨hstartup, hsamples⟩)
    exact happens_of_only (congrArg Host.Outcome.next hclose) (setTmb_only _ s) rfl
  · have href : referenceReturn s = raise .timebase (s.setTmb { s.tmb with clock := .reference }) :=
      if_pos (returnDue_iff.mpr ⟨hstartup, hclock, hrun⟩)
    exact happens_of_only (congrArg Host.Outcome.next href)
      (((setTmb_only _ s).mono (by simp)).trans ((raise_only _ _).mono (by simp)))
      ⟨rfl, raised_raise .timebase s _ rfl⟩

end Sys2Proof.Proofs

/-! PROOFS. The Settings Store: SETTINGS.SAVE with its operations (O44) and SETTINGS.CLEAR with its erase (O45). -/

namespace Sys2Proof.Proofs

open Sys2Proof Sys2Proof.Machine Sys2Proof.Laws

/-! ## A verb whose reply comes later (R167) -/

section Deferred

variable {c : Instr} {v : Verb} {l : Lane} {tag : Byte} {args : List Text} {s : State}
  {refusal : List Text → State → Option Reason} {start : Byte → State → State}

theorem dispatchDeferred_takes (h : Takes v l tag args s) : dispatchDeferred v l refusal start s =
    (refusal args (popLine l s)).elim (done (start tag (popLine l s)))
      fun why => done (emit (.reply l tag (.err why)) (popLine l s)) := by
  obtain ⟨hline, hlane⟩ := h
  cases hr : refusal args (popLine l s) <;> simp [dispatchDeferred, hline, hlane, hr]

theorem refuses_deferred {why : Reason} (hc : exec c s = dispatchDeferred v l refusal start s) (h : Takes v l tag args s)
    (hr : refusal args (popLine l s) = some why) : Refuses c l tag why s := by
  obtain ⟨hreplied, honly⟩ := refused_of_answered l tag (.err why) s
  exact ⟨_, hc.trans ((dispatchDeferred_takes h).trans (by rw [hr]; rfl)), hreplied, honly, trivial⟩

theorem begins_deferred {ps : List Part} {f : Ofp → Ofp} {q : State → Prop}
    (hc : exec c s = dispatchDeferred v l refusal start s) (h : Takes v l tag args s)
    (hr : refusal args (popLine l s) = none) (hofp : (start tag (popLine l s)).ofp = f (popLine l s).ofp)
    (honly : OnlyChanges (.office :: ps) (popLine l s) (start tag (popLine l s)))
    (hq : q (start tag (popLine l s)).report) : Begins c l s ps f q :=
  ⟨(start tag (popLine l s)).report, hc.trans ((dispatchDeferred_takes h).trans (by rw [hr]; rfl)), hofp,
    ((popLine_only l s).mono (by simp)).trans ((honly.mono (by simp)).trans ((report_only _).mono (by simp))), hq⟩

end Deferred

/-! ## The checks of SETTINGS.SAVE and SETTINGS.CLEAR (R179, R181) -/

theorem flashErasing_iff {s : State} : s.flashErasing = true ↔ FlashErases s := by
  cases hflash : s.sst.flash <;> simp [State.flashErasing, FlashErases, hflash]

theorem storeRefusal_firstOf (args : List Text) (s : State) : FirstOf
    [(args ≠ [], .args), (s.sst.runState ≠ .standby, .state), (FlashErases s, .busy)] (storeRefusal args s) :=
  firstOf_ite (by simp) (firstOf_ite Iff.rfl (firstOf_ite flashErasing_iff firstOf_nil))

theorem startSave_only (tag : Byte) (s : State) : OnlyChanges [.office, .sst] s (startSave tag s) := fun p hp => by
  cases p with
  | office | sst => simp at hp
  | _ => rfl

theorem startClear_only (tag : Byte) (s : State) : OnlyChanges [.office, .sst] s (startClear tag s) := fun p hp => by
  cases p with
  | office | sst => simp at hp
  | _ => rfl

/-! ## The end of a save (R167, R179) -/

/-- What the Office Port holds beside the attention set. -/
theorem office_fields {s t : State} (h : Agree .office s t) :
    t.ofp.outQ = s.ofp.outQ ∧ (∀ l, t.ofp.inbox l = s.ofp.inbox l) ∧ t.ofp.held = s.ofp.held
      ∧ t.ofp.saveTag = s.ofp.saveTag ∧ t.ofp.clearTag = s.ofp.clearTag ∧ t.ofp.compat = s.ofp.compat := by
  have hoffice : { t.ofp with attn := [] } = { s.ofp with attn := [] } := h
  refine ⟨(congrArg Ofp.outQ hoffice :), fun l => ?_, (congrArg Ofp.held hoffice :),
    (congrArg Ofp.saveTag hoffice :), (congrArg Ofp.clearTag hoffice :), (congrArg Ofp.compat hoffice :)⟩
  cases l
  exacts [(congrArg Ofp.inboxQ hoffice :), (congrArg Ofp.inboxP hoffice :), (congrArg Ofp.inboxM hoffice :)]

/-- A save that has ended with reply `r`: the reply held, the Settings Store as `x` says, and LUR's evaluation. -/
def saveEnded (r : Reply) (x : Sst) (s : State) : State := evaluateIfSet ((giveDeferred r s).setSst x)

section SaveEnded

variable (r : Reply) (x : Sst) (s : State)

theorem giveDeferred_setSst_only : OnlyChanges [.office, .sst] s ((giveDeferred r s).setSst x) :=
  ((giveDeferred_only r s).mono (by simp)).trans ((setSst_only x _).mono (by simp))

theorem saveEnded_only :
    OnlyChanges [.sst, .office, .lur, .mxp, .crs, .attn, .waves] s (saveEnded r x s) :=
  ((giveDeferred_setSst_only r x s).mono (by simp)).trans ((evaluateIfSet_only _).mono (by simp))

theorem saveEnded_sst : (saveEnded r x s).sst = x := evaluateIfSet_only ((giveDeferred r s).setSst x) .sst (by simp)

theorem replyGiven_saveEnded : ReplyGiven r s (saveEnded r x s).report := by
  obtain ⟨hq, hinbox, hheld, hsave, hclear, hcompat⟩ :=
    office_fields (evaluateIfSet_only ((giveDeferred r s).setSst x) .office (by simp))
  exact ⟨hheld, hsave, hq, fun l => (hinbox l).trans (by cases l <;> rfl), hclear, hcompat⟩

variable {r x s} in
/-- The part has left SAVING, so that LUR evaluates whenever station time is SET (R10). -/
theorem evaluatesAfterSave_saveEnded (hx : x.runState ≠ .saving) :
    EvaluatesAfterSave s (saveEnded r x s).report := by
  have hsave : ∀ b, (b && !((giveDeferred r s).setSst x).saving) = b := fun b => by
    simp [State.saving, State.setSst, hx]
  by_cases hset : s.tmb.timeSet = true
  · have heval : saveEnded r x s = evaluateEvents ((giveDeferred r s).setSst x) := if_pos ((hsave _).trans hset)
    have hspec := eventsEvaluated_evaluateEvents (s := (giveDeferred r s).setSst x) hset rfl
    rw [EvaluatesAfterSave, if_pos hset, heval]
    exact eventsEvaluated_congr hspec rfl rfl rfl rfl (fun _ => rfl) rfl rfl rfl rfl rfl fun _ => rfl
  · have hsame : saveEnded r x s = (giveDeferred r s).setSst x := if_neg fun h => hset ((hsave _).symm.trans h)
    rw [EvaluatesAfterSave, if_neg hset, hsame]
    exact ⟨((giveDeferred_setSst_only r x s).mono (by simp)).trans ((report_only _).mono (by simp)),
      fun k => by simp; rfl⟩

variable {r x s} in
theorem happens_saveEnded {c : Instr} (hc : exec c s = done (saveEnded r x s)) (hx : x.runState ≠ .saving) :
    Happens c s [.sst, .office, .lur, .mxp, .crs, .attn, .waves] fun t =>
      t.sst = x ∧ ReplyGiven r s t ∧ EvaluatesAfterSave s t :=
  happens_done hc (saveEnded_only r x s)
    ⟨saveEnded_sst r x s, replyGiven_saveEnded r x s, evaluatesAfterSave_saveEnded hx⟩

end SaveEnded

/-! ## The operations of a save (R179, R180) -/

section Operations

variable {s : State} {ph : SavePhase} (hflash : s.sst.flash = .saving ph)

include hflash

theorem exec_saveOperationEnd_next {next : SavePhase} {more : Bool} (hkept : s.sst.abandoned = false)
    (hnext : ph.after more = some next) :
    exec (.saveOperationEnd more) s = done (s.setSst { s.sst with flash := .saving next }) := by
  simp [exec, execSaveOperationEnd, hflash, hkept, hnext]

theorem exec_saveOperationEnd_last {more : Bool} (hkept : s.sst.abandoned = false) (hlast : ph.after more = none) :
    exec (.saveOperationEnd more) s = done (completeSave s) := by
  simp [exec, execSaveOperationEnd, hflash, hkept, hlast]

theorem exec_saveOperationEnd_abandoned (more : Bool) (habandoned : s.sst.abandoned = true) :
    exec (.saveOperationEnd more) s = done (eraseAbandoned s) := by
  simp [exec, execSaveOperationEnd, hflash, habandoned]

theorem exec_saveOperationTimeout (hkept : s.sst.abandoned = false) :
    exec .saveOperationTimeout s = done (failSave ph s) := by
  simp [exec, execSaveOperationTimeout, hflash, hkept]

theorem exec_saveOperationTimeout_abandoned (habandoned : s.sst.abandoned = true) :
    exec .saveOperationTimeout s = done (eraseAbandoned s) := by
  simp [exec, execSaveOperationTimeout, hflash, habandoned]

theorem flashWork_of_saving (hkept : s.sst.abandoned = false) :
    s.flashWork = some (ph.work (nextGeneration s.sst.generation) (snapshot s)) := by
  simp [State.flashWork, hflash, hkept]

end Operations

theorem after_eq_next {ph next : SavePhase} {more : Bool}
    (h : (ph = .erase ∧ next = if more then .erase else .body) ∨ (ph = .body ∧ next = if more then .body else .header)
      ∨ (ph = .header ∧ next = .version)) : ph.after more = some next := by
  rcases h with ⟨rfl, rfl⟩ | ⟨rfl, rfl⟩ | ⟨rfl, rfl⟩ <;> rfl

theorem failed_eq (ph : SavePhase) : ph.failed = if ph = .version then .asAttached else .torn := by cases ph <;> rfl

/-- A 14-byte header over a body says its format, length, generation and check (R177). -/
theorem image_reads {g : Nat} (hg : g ≤ 4294967295) (i : SavedImage) :
    let body := imageBody i
    let header := imageHeader g body
    1 ≤ body.length ∧ body.length ≤ 1044480 ∧ header.length = 14 ∧ headerNumber header 0 2 = 1
      ∧ headerNumber header 2 4 = body.length ∧ headerNumber header 6 4 = g
      ∧ headerNumber header 10 4 = (crc32 body).toNat := by
  obtain ⟨hlo, hhi⟩ := imageBody_length i
  exact ⟨hlo, hhi, imageHeader_length g _, imageHeader_version g _, imageHeader_bodyLength g _ (by omega),
    imageHeader_generation g _ (by omega), imageHeader_check g _⟩

/-- Settles O44: the checks by `storeRefusal_firstOf`, each operation by its equation of `exec`, the end of the save by
`happens_saveEnded`, and what is written by `flashWork_of_saving` and `image_reads`. -/
theorem settingsSaveEffects : Obligations.SettingsSaveEffects := by
  refine ⟨fun l tag args s h => ?_, fun ph next more s hflash hkept hnext => ?_, fun more s hflash hkept => ?_,
    fun ph s hflash hkept => ?_, fun ph more s hflash habandoned => ?_, fun s hflash => ?_, fun s hkept => ?_,
    fun c s hflash => ?_, fun g i hg => image_reads hg i⟩
  · refine checked_of_firstOf (storeRefusal_firstOf args (popLine l s)) (fun why hr => refuses_deferred rfl h hr)
      fun hr => begins_deferred rfl h hr rfl (startSave_only tag _) rfl
  · exact happens_done (exec_saveOperationEnd_next hflash hkept (after_eq_next hnext)) (setSst_only _ s) rfl
  · exact happens_saveEnded (exec_saveOperationEnd_last hflash hkept rfl) (by simp)
  · have hfail := happens_saveEnded (exec_saveOperationTimeout hflash hkept) (by simp)
    simp only [failed_eq] at hfail
    exact hfail
  · exact ⟨happens_done (exec_saveOperationEnd_abandoned hflash more habandoned) (setSst_only _ s) rfl,
      happens_done (exec_saveOperationTimeout_abandoned hflash habandoned) (setSst_only _ s) rfl⟩
  · exact happens_done (if_pos hflash) (setSst_only _ s) rfl
  · exact ⟨fun hflash => flashWork_of_saving hflash hkept, fun hflash => flashWork_of_saving hflash hkept,
      fun hflash => flashWork_of_saving hflash hkept, fun hflash => flashWork_of_saving hflash hkept⟩
  · simp [State.flashWork, hflash]

/-! ## The end of a clear (R167, R181) -/

theorem endClear_eq {s : State} {tag : Byte} (htag : s.ofp.clearTag = some tag) (r : Reply) : endClear r s =
    { s with
      sst := { s.sst with flash := .idle, imageValid := false, held := .erased }
      ofp := { s.ofp with outQ := s.ofp.outQ ++ [.reply .m tag r], clearTag := none } } := by
  simp [endClear, State.setSst, htag, emit]

/-- Settles O45: the checks are those of a save, and both ends of the erase give their reply by `endClear_eq`. -/
theorem settingsClearEffects : Obligations.SettingsClearEffects := by
  refine ⟨fun l tag args s h => ?_, fun tag s hflash htag => ?_⟩
  · refine checked_of_firstOf (storeRefusal_firstOf args (popLine l s)) (fun why hr => refuses_deferred rfl h hr)
      fun hr => begins_deferred rfl h hr rfl (startClear_only tag _) rfl
  · intro ends
    have hends : ∀ c r, exec c s = done (endClear r s) → ends c r := fun c r hc => by
      rw [endClear_eq htag] at hc
      refine happens_done hc (fun p hp => ?_) ⟨rfl, rfl⟩
      cases p with
      | office | sst => simp at hp
      | _ => rfl
    exact ⟨hends _ _ (if_pos hflash), hends _ _ (if_pos hflash)⟩

end Sys2Proof.Proofs

/-! PROOFS. The transition of one drop and its evaluation (O34), DROP.DISCONNECT (O32), DROP.RESUME and DROP.REASSIGN
(O33). -/

namespace Sys2Proof.Proofs

open Sys2Proof Sys2Proof.Machine Sys2Proof.Laws

/-! ## A drop becomes VACANT (R74) -/

section Vacate

variable (d : Nat) (s : State)

theorem vacate_queue : (vacate d s).aen.queue =
    if (s.drop d).link = some .queued then s.aen.queue.filter (fun e => e.drop != d) else s.aen.queue := by
  unfold vacate
  dsimp only
  split_ifs <;> split <;> rfl

theorem vacate_olz_of_outage {n : Nat} (h : (s.drop d).outage = some n) : (vacate d s).olz =
    { s.olz with log := s.olz.log.map fun o => if o.number = n then o.oneFewer else o } := by
  unfold vacate
  simp only [h]
  split_ifs <;> rfl

theorem vacate_only_in_no_outage (h : (s.drop d).outage = none) : OnlyChanges [.queue, .dtb] s (vacate d s) := by
  intro p hp
  by_cases holz : p = .olz
  · subst holz
    obtain ⟨_, _, _, _, hlog⟩ := vacate_spec d s
    exact hlog h
  · exact vacate_only d s p (by simp_all)

end Vacate

/-! ## Steps of a transition (R80, R131 to R133) -/

theorem raised_nil_of_attn {s t : State} (h : t.ofp.attn = s.ofp.attn) : Raised [] s t := fun k => by
  simpa using attn_congr h k

theorem episodeCredit_at_most_one (d : Nat) (r : Drop) (s : State) :
    episodeCredit d r s = [] ∨ ∃ b, episodeCredit d r s = [b] := by
  unfold episodeCredit
  split
  · exact .inl rfl
  · split_ifs
    exacts [.inl rfl, .inr ⟨_, rfl⟩]

/-- What the end of the episode of drop `d` leaves of the journal: nothing, or the record of its credit (R132). -/
def EpisodeCredited (d : Nat) (s t : State) : Prop :=
  if episodeCredit d (s.drop d) s = [] then t.bjn = s.bjn ∧ Raised [] s t else Wrote (episodeCredit d (s.drop d) s) s t

theorem episodeCredited_endEpisode {d : Nat} {s : State} (hfree : 1 ≤ s.free) :
    EpisodeCredited d s (endEpisode d s) := by
  have honly := accrualEnded_only d s
  rw [EpisodeCredited, endEpisode_eq hfree]
  split_ifs with hcredit
  · rw [hcredit]
    exact ⟨honly .bjn (by simp), raised_nil_of_attn (honly .attn (by simp))⟩
  · obtain ⟨b, hb⟩ := (episodeCredit_at_most_one d (s.drop d) s).resolve_left hcredit
    rw [hb]
    exact wrote_frame (writeRecord_wrote b _) honly (OnlyChanges.refl [] _) (by simp) (by simp)

theorem episodeCredited_frame {d : Nat} {s t u : State} {ps : List Part} (h : EpisodeCredited d s t)
    (ho : OnlyChanges ps t u) (hbjn : .bjn ∉ ps) (hattn : .attn ∉ ps) : EpisodeCredited d s u := by
  unfold EpisodeCredited at *
  split_ifs at * with hcredit
  · obtain ⟨hb, hr⟩ := h
    exact ⟨Eq.trans (ho .bjn hbjn) hb, fun k => Eq.trans (attn_congr (ho .attn hattn) k) (hr k)⟩
  · exact wrote_frame h (OnlyChanges.refl [] s) ho (by simp) (by simp_all)

section Leave

variable {d m : Nat} {s : State}

theorem leaveOutage_drop (hfree : 1 ≤ s.free) : (leaveOutage d m s).drop d =
    { s.drop d with accrual := none, lastEnd := some s.tmb.run, outage := none } := by
  have htmb : (endEpisode d s).tmb = s.tmb := endEpisode_only d s .tmb (by simp)
  have hdrop : (leaveOutage d m s).drop d = { (endEpisode d s).drop d with
      accrual := none, lastEnd := some (endEpisode d s).tmb.run, outage := none } :=
    (drop_setDrop ..).trans (if_pos rfl)
  rw [hdrop, htmb, endEpisode_drop hfree]

theorem leaveOutage_onlyDrop (hfree : 1 ≤ s.free) : OnlyDrop d s (leaveOutage d m s) :=
  onlyDrop_trans (endEpisode_onlyDrop hfree) (onlyDrop_trans (onlyDrop_of_setDrop d _ _) (onlyDrop_of_dtb rfl))

theorem leaveOutage_olz : (leaveOutage d m s).olz =
    { s.olz with log := s.olz.log.map fun o => if o.number = m then o.oneFewer else o } := by
  have holz : (endEpisode d s).olz = s.olz := endEpisode_only d s .olz (by simp)
  rw [← holz]
  rfl

theorem episodeCredited_leaveOutage (hfree : 1 ≤ s.free) : EpisodeCredited d s (leaveOutage d m s) :=
  episodeCredited_frame (episodeCredited_endEpisode hfree)
    (((setDrop_only d _ _).mono (by simp)).trans ((leaveCount_only m _).mono (by simp)) : OnlyChanges [.dtb, .olz] _ _)
    (by simp) (by simp)

end Leave

theorem accrualIn_eq (n : Nat) (v : Service) (e : Option Word) (s : State) : accrualIn n v e s =
    if v = .active ∧ s.credits n then (s.record n).map fun o => episodeStart s.tmb.run o e else none := by
  unfold accrualIn episodeStart laterRun
  rfl

theorem record_of_mapped {m n : Nat} {s t : State} {f : Outage → Outage} (hf : ∀ o, (f o).number = o.number)
    (hmn : m ≠ n) (h : t.olz.log = s.olz.log.map fun o => if o.number = m then f o else o) :
    t.record n = s.record n := by
  have hnumber : ∀ o : Outage, (if o.number = m then f o else o).number = o.number := fun o => by
    split <;> simp [hf]
  unfold State.record
  rw [h, List.find?_map]
  cases hfind : s.olz.log.find? ((fun o => o.number == n) ∘ fun o => if o.number = m then f o else o) with
  | none =>
    refine (List.find?_eq_none.mpr fun o ho => ?_).symm
    simpa [hnumber] using List.find?_eq_none.mp hfind o ho
  | some o =>
    have ho := List.find?_some hfind
    simp only [Function.comp_apply, hnumber, beq_iff_eq] at ho
    have hsame : (fun o : Outage => o.number == n) ∘ (fun o => if o.number = m then f o else o)
        = fun o => o.number == n := funext fun x => by simp [hnumber]
    rw [← hsame, hfind]
    simp [ho, Ne.symm hmn]

theorem accrualIn_congr {n : Nat} {s t : State} (hrecord : t.record n = s.record n) (htmb : t.tmb = s.tmb)
    (v : Service) (e : Option Word) : accrualIn n v e t = accrualIn n v e s := by
  rw [accrualIn_eq, accrualIn_eq, State.credits, State.credits, hrecord, htmb]

/-- A drop that enters record `n` (R131, step 3). -/
theorem enterOutage_accrual (d n : Nat) (s : State) : (enterOutage d n s).drop d = { s.drop d with
    outage := some n, accrual := accrualIn n (s.drop d).service (s.drop d).lastEnd s } := by
  rw [enterOutage_drop, accrualIn_eq]

/-- The outage mark's effect (R80): of the queue and of the drop. -/
theorem markLink_spec (d : Nat) (s : State) :
    OnlyDrop d s (markLink d s)
      ∧ (markLink d s).aen.queue = (if (s.drop d).link = some .queued then
          s.aen.queue.filter (fun e => e.drop != d) else s.aen.queue)
      ∧ (markLink d s).drop d = { s.drop d with
          link := if (s.drop d).link = some .queued then some .parked else (s.drop d).link
          parkOnClose := if (s.drop d).link = some .awaiting then true else (s.drop d).parkOnClose } := by
  cases hlink : (s.drop d).link with
  | none => simp [markLink, hlink, onlyDrop_refl]; rw [← hlink]
  | some k =>
    cases k with
    | queued =>
      simp only [markLink, hlink]
      exact ⟨onlyDrop_trans (onlyDrop_of_dtb rfl) (onlyDrop_of_setDrop d _ _), rfl, by simp [drop_setDrop]⟩
    | awaiting => simp [markLink, hlink, onlyDrop_of_setDrop]
    | settled => simp [markLink, hlink, onlyDrop_refl]; rw [← hlink]
    | parked => simp [markLink, hlink, onlyDrop_refl]; rw [← hlink]
    | unconfirmed => simp [markLink, hlink, onlyDrop_refl]; rw [← hlink]

/-! ## The transition by the outages it lies between -/

section Transition

variable {d : Nat} {s : State}

theorem transition_same {target : Option Nat} (h : target = (s.drop d).outage) : transition d target s = s := by
  cases ho : (s.drop d).outage <;> simp [transition, h, ho]

theorem transition_vacates {n : Nat} (ho : (s.drop d).outage = none) (hs : (s.drop d).service = .closing) :
    transition d (some n) s = vacate d s := by simp [transition, ho, hs]

theorem transition_enters {n : Nat} (ho : (s.drop d).outage = none) (hs : (s.drop d).service ≠ .closing) :
    transition d (some n) s = markLink d (enterOutage d n s) := by simp [transition, ho, hs]

theorem transition_leaves {m : Nat} (ho : (s.drop d).outage = some m) :
    transition d none s = releaseLink d (leaveOutage d m s) := by simp [transition, ho]

theorem transition_continues {m n : Nat} (ho : (s.drop d).outage = some m) (hmn : m ≠ n)
    (hk : s.credits m = true ∧ s.credits n = true ∧ (s.drop d).accrual ≠ none) :
    transition d (some n) s = continueIn d m n s := by
  obtain ⟨hm, hn, ha⟩ := hk
  simp [transition, ho, hmn, hm, hn, Option.isSome_iff_ne_none.mpr ha]

theorem transition_moves {m n : Nat} (ho : (s.drop d).outage = some m) (hmn : m ≠ n)
    (hk : ¬(s.credits m = true ∧ s.credits n = true ∧ (s.drop d).accrual ≠ none)) :
    transition d (some n) s = enterOutage d n (leaveOutage d m s) := by
  rw [← Option.isSome_iff_ne_none, ← and_assoc] at hk
  simp [transition, ho, hmn, hk]

/-- The counts of a drop that gives up record `m` and takes record `n` (R119). -/
theorem counts_moved {m n : Nat} (hmn : m ≠ n) (log : List Outage) :
    (log.map fun o => if o.number = m then o.oneFewer else o).map (fun o => if o.number = n then o.oneMore else o)
      = log.map fun o => if o.number = m then o.oneFewer else if o.number = n then o.oneMore else o := by
  rw [List.map_map]
  refine List.map_congr_left fun o _ => ?_
  by_cases hm : o.number = m
  · have : (o.oneFewer).number ≠ n := fun h => hmn (hm.symm.trans h)
    simp [hm, this]
  · simp [hm]

/-- A drop in no outage enters one (R80, R131). -/
theorem transition_enters_spec {n : Nat} (ho : (s.drop d).outage = none) (hs : (s.drop d).service ≠ .closing) :
    let r := s.drop d
    let t := transition d (some n) s
    OnlyChanges [.dtb, .queue, .olz] s t ∧ OnlyDrop d s t
      ∧ t.aen.queue = (if r.link = some .queued then s.aen.queue.filter (fun e => e.drop != d) else s.aen.queue)
      ∧ t.drop d = { r with
          outage := some n, accrual := accrualIn n r.service r.lastEnd s
          link := if r.link = some .queued then some .parked else r.link
          parkOnClose := if r.link = some .awaiting then true else r.parkOnClose }
      ∧ t.olz = { s.olz with log := s.olz.log.map fun o => if o.number = n then o.oneMore else o } := by
  have hentered := enterOutage_accrual d n s
  obtain ⟨hother, hqueue, hdrop⟩ := markLink_spec d (enterOutage d n s)
  have hmarked := markLink_only d (enterOutage d n s)
  rw [hentered] at hqueue hdrop
  simp only [transition_enters ho hs]
  refine ⟨((enterOutage_only d n s).mono (by simp)).trans (hmarked.mono (by simp)),
    onlyDrop_trans (enterOutage_onlyDrop d n s) hother, hqueue, hdrop, Eq.trans (hmarked .olz (by simp)) rfl⟩

/-- A drop leaves its outage for none (R80, R131, R132). -/
theorem transition_leaves_spec {m : Nat} (hfree : 1 ≤ s.free) (ho : (s.drop d).outage = some m) :
    let r := s.drop d
    let t := transition d none s
    OnlyChanges [.dtb, .olz, .bjn, .attn] s t ∧ OnlyDrop d s t ∧ EpisodeCredited d s t
      ∧ t.drop d = { r with outage := none, accrual := none, lastEnd := some s.tmb.run, parkOnClose := false }
      ∧ t.olz = { s.olz with log := s.olz.log.map fun o => if o.number = m then o.oneFewer else o } := by
  simp only [transition_leaves ho]
  have hrelease : OnlyChanges [.dtb] (leaveOutage d m s) (releaseLink d (leaveOutage d m s)) := setDrop_only d _ _
  refine ⟨((leaveOutage_only d m s).mono (by simp)).trans (hrelease.mono (by simp)),
    onlyDrop_trans (leaveOutage_onlyDrop hfree) (onlyDrop_of_setDrop d _ _),
    episodeCredited_frame (episodeCredited_leaveOutage hfree) hrelease (by simp) (by simp), ?_,
    Eq.trans (hrelease .olz (by simp)) leaveOutage_olz⟩
  rw [releaseLink, drop_setDrop, if_pos rfl, leaveOutage_drop hfree]

/-- A drop with its accrual moves between two records that credit it, and the accrual goes on (R131, step 1). -/
theorem continueIn_spec {m n : Nat} (hmn : m ≠ n) : let t := continueIn d m n s
    OnlyChanges [.dtb, .olz] s t ∧ OnlyDrop d s t ∧ t.drop d = { s.drop d with outage := some n }
      ∧ t.olz = { s.olz with log := s.olz.log.map fun o =>
          if o.number = m then o.oneFewer else if o.number = n then o.oneMore else o } := by
  refine ⟨((setDrop_only d _ s).mono (by simp)).trans
      (((leaveCount_only m _).mono (by simp)).trans ((enterCount_only n _).mono (by simp))),
    onlyDrop_trans (onlyDrop_of_setDrop d _ s) (onlyDrop_of_dtb rfl), (drop_setDrop ..).trans (if_pos rfl), ?_⟩
  rw [← counts_moved hmn]
  rfl

/-- A drop leaves record `m` and enters record `n` (R131, R132). -/
theorem moveOutage_spec {m n : Nat} (hfree : 1 ≤ s.free) (hmn : m ≠ n) :
    let r := s.drop d
    let t := enterOutage d n (leaveOutage d m s)
    OnlyChanges [.dtb, .olz, .bjn, .attn] s t ∧ OnlyDrop d s t ∧ EpisodeCredited d s t
      ∧ t.drop d = { r with
          outage := some n, accrual := accrualIn n r.service (some s.tmb.run) s, lastEnd := some s.tmb.run }
      ∧ t.olz = { s.olz with log := s.olz.log.map fun o =>
          if o.number = m then o.oneFewer else if o.number = n then o.oneMore else o } := by
  have hleft := leaveOutage_only d m s
  have hentered := enterOutage_only d n (leaveOutage d m s)
  have hrecord : (leaveOutage d m s).record n = s.record n :=
    record_of_mapped (f := Outage.oneFewer) (fun _ => rfl) hmn (congrArg Olz.log leaveOutage_olz)
  refine ⟨(hleft.mono (by simp)).trans (hentered.mono (by simp)),
    onlyDrop_trans (leaveOutage_onlyDrop hfree) (enterOutage_onlyDrop d n _),
    episodeCredited_frame (episodeCredited_leaveOutage hfree) hentered (by simp) (by simp), ?_, ?_⟩
  · rw [enterOutage_accrual, leaveOutage_drop hfree, accrualIn_congr hrecord (hleft .tmb (by simp))]
  · rw [enterOutage_olz, leaveOutage_olz, ← counts_moved hmn]

end Transition

/-- The evaluation of one drop (R134). -/
theorem evaluateDrop_eq (d : Nat) (s : State) : evaluateDrop d s =
    let u := transition d (s.proper d) s
    if (u.drop d).link = some .parked ∧ (u.drop d).outage = none then (parkedRequest .host d u).1 else u := rfl

/-- Settles O34: the transition by the outages it lies between, the evaluation by `parkedRequest`. -/
theorem transitionOfOneDrop : Obligations.TransitionOfOneDrop := by
  refine ⟨fun d target s hfree => ⟨transition_same, ?_, ?_, ?_, ?_⟩, fun d s => ⟨fun h => ?_, fun hl ho hroom => ?_⟩⟩
  · rintro n rfl ho hs
    rw [transition_vacates ho hs]
    obtain ⟨hother, hdrop, -⟩ := vacate_spec d s
    exact ⟨(vacate_only_in_no_outage d s ho).mono (by simp), hother, vacate_queue d s, hdrop⟩
  · rintro n rfl ho hs
    exact transition_enters_spec ho hs
  · rintro m rfl ho
    exact transition_leaves_spec (Nat.sub_pos_of_lt hfree) ho
  · rintro m n rfl ho hmn
    by_cases hk : s.credits m = true ∧ s.credits n = true ∧ (s.drop d).accrual ≠ none
    · obtain ⟨honly, hother, hdrop, holz⟩ := continueIn_spec (d := d) (s := s) hmn
      rw [transition_continues ho hmn hk]
      exact ⟨honly.mono (by simp), hother, fun _ => ⟨honly .bjn (by simp),
        raised_nil_of_attn (honly .attn (by simp)), hdrop⟩, fun h => absurd hk h, holz⟩
    · obtain ⟨honly, hother, hcredit, hdrop, holz⟩ := moveOutage_spec (d := d) (Nat.sub_pos_of_lt hfree) hmn
      rw [transition_moves ho hmn hk]
      exact ⟨honly, hother, fun h => absurd h hk, fun _ => ⟨hcredit, hdrop⟩, holz⟩
  · rw [evaluateDrop_eq]
    exact if_neg (not_and_or.mpr h)
  · have heval : evaluateDrop d s = (parkedRequest .host d (transition d (s.proper d) s)).1 := if_pos ⟨hl, ho⟩
    generalize transition d (s.proper d) s = u at *
    have hplaced : (parkedRequest .host d u).1 =
        (u.setQueue (u.aen.queue ++ [⟨d, false⟩])).setDrop d { u.drop d with link := some .queued, attempts := 0 } := by
      rw [parkedRequest, QClass.limit, if_pos hroom]
      rfl
    rw [heval, hplaced]
    exact ⟨((setQueue_only _ u).mono (by simp)).trans ((setDrop_only d _ _).mono (by simp)),
      onlyDrop_trans (onlyDrop_of_dtb rfl) (onlyDrop_of_setDrop d _ _), rfl, (drop_setDrop ..).trans (if_pos rfl)⟩

/-! ## DROP.DISCONNECT -/

section Disconnect

variable (d : Nat) (s : State)

/-- The state in which a disconnected drop leaves at once or makes its request (R73). -/
def disconnected : State := endEpisode d (writeRecord (.disconnect d (s.drop d).account) s)

theorem disconnected_only : OnlyChanges [.dtb, .bjn, .attn] s (disconnected d s) :=
  ((writeRecord_only _ s).mono (by simp)).trans ((endEpisode_only d _).mono (by simp))

theorem disconnected_queue : (disconnected d s).aen.queue = s.aen.queue := disconnected_only d s .queue (by simp)

variable {s}

theorem writeRecord_free (b : JBody) (hopen : ¬4096 - s.bjn.held.length ≤ 256) : 1 ≤ (writeRecord b s).free := by
  have hlen : (writeRecord b s).bjn.held.length = s.bjn.held.length + 1 := by simp [appendRecord]
  unfold State.free
  omega

variable (hopen : ¬4096 - s.bjn.held.length ≤ 256)

include hopen

theorem disconnected_drop : (disconnected d s).drop d = { s.drop d with accrual := none } := by
  rw [disconnected, endEpisode_drop (writeRecord_free _ hopen), writeRecord_drop]

theorem disconnected_onlyDrop : OnlyDrop d s (disconnected d s) :=
  onlyDrop_trans (onlyDrop_of_dtb (writeRecord_dtb _ s)) (endEpisode_onlyDrop (writeRecord_free _ hopen))

theorem disconnected_wrote :
    Wrote ([.disconnect d (s.drop d).account] ++ episodeCredit d (s.drop d) s) s (disconnected d s) := by
  have hcredit : episodeCredit d ((writeRecord (.disconnect d (s.drop d).account) s).drop d)
      (writeRecord (.disconnect d (s.drop d).account) s) = episodeCredit d (s.drop d) s := by
    rw [writeRecord_drop]
    exact episodeCredit_congr rfl rfl rfl (writeRecord_tmb ..) (writeRecord_params ..)
  rw [← hcredit]
  exact endEpisode_wrote (writeRecord_wrote _ s) (writeRecord_tmb ..) (writeRecord_params ..) (writeRecord_free _ hopen)

/-- A drop in no outage becomes CLOSING with a HOST request (R73). -/
theorem disconnectEffect_closing (ho : (s.drop d).outage = none) (hplace : ¬NoPlaceFor (s.drop d) s) :
    let t := disconnectEffect d s
    OnlyChanges [.dtb, .bjn, .attn, .queue] s t
      ∧ Wrote ([.disconnect d (s.drop d).account] ++ episodeCredit d (s.drop d) s) s t ∧ OnlyDrop d s t
      ∧ (t.drop d, t.aen.queue) =
          hostRequested d { s.drop d with service := .closing, accrual := none } s.aen.queue := by
  have hdrop := disconnected_drop d hopen
  have hqueue := disconnected_queue d s
  have heffect : disconnectEffect d s = request .host false d (setService .closing d (disconnected d s)) :=
    if_neg (by rw [← disconnected, hdrop, ho]; simp)
  have hclosing : OnlyChanges [.dtb] (disconnected d s) (setService .closing d (disconnected d s)) := setDrop_only d _ _
  have hrequest := request_only .host false d (setService .closing d (disconnected d s))
  have hclosed : (setService .closing d (disconnected d s)).drop d =
      { s.drop d with service := .closing, accrual := none } := by
    rw [setService, drop_setDrop, if_pos rfl, hdrop]
  have hplace' : ¬NoPlaceFor { s.drop d with service := .closing, accrual := none }
      (setService .closing d (disconnected d s)) := fun ⟨hfree, hnone, hfull⟩ =>
    hplace ⟨hfree, hnone, hqueue ▸ hfull⟩
  simp only [heffect]
  refine ⟨(((disconnected_only d s).mono (by simp)).trans (hclosing.mono (by simp))).trans (hrequest.mono (by simp)),
    wrote_frame (disconnected_wrote d hopen) (OnlyChanges.refl [] s)
      ((hclosing.mono (by simp)).trans hrequest) (by simp) (by simp),
    onlyDrop_trans (disconnected_onlyDrop d hopen)
      (onlyDrop_trans (onlyDrop_of_setDrop d _ _) (request_onlyDrop _ _ d _)),
    (request_host hclosed hplace').trans ?_⟩
  exact congrArg (hostRequested d _) hqueue

/-- A drop in an outage becomes VACANT at once (R73, R74). -/
theorem disconnectEffect_vacant {n : Nat} (ho : (s.drop d).outage = some n) :
    let r := s.drop d
    let t := disconnectEffect d s
    OnlyChanges [.dtb, .bjn, .attn, .queue, .olz] s t
      ∧ Wrote ([.disconnect d r.account] ++ episodeCredit d r s) s t ∧ OnlyDrop d s t ∧ t.drop d = vacatedRecord r
      ∧ t.aen.queue = (if r.link = some .queued then s.aen.queue.filter (fun e => e.drop != d) else s.aen.queue)
      ∧ t.olz = { s.olz with log := s.olz.log.map fun o => if o.number = n then o.oneFewer else o } := by
  have hdrop := disconnected_drop d hopen
  have hout : ((disconnected d s).drop d).outage = some n := by rw [hdrop, ho]
  have heffect : disconnectEffect d s = vacate d (disconnected d s) :=
    if_pos (by rw [← disconnected, hout]; rfl)
  have holz : (disconnected d s).olz = s.olz := disconnected_only d s .olz (by simp)
  have hvacate := vacate_only d (disconnected d s)
  obtain ⟨hother, hvacant, -⟩ := vacate_spec d (disconnected d s)
  simp only [heffect]
  refine ⟨((disconnected_only d s).mono (by simp)).trans (hvacate.mono (by simp)),
    wrote_frame (disconnected_wrote d hopen) (OnlyChanges.refl [] s) hvacate (by simp) (by simp),
    onlyDrop_trans (disconnected_onlyDrop d hopen) hother, ?_, ?_, ?_⟩
  · rw [hvacant, hdrop]
    rfl
  · rw [vacate_queue, disconnected_queue, hdrop]
  · rw [vacate_olz_of_outage _ _ hout, holz]

end Disconnect

/-- Settles O32: the checks by `disconnectRefusal_firstOf`, then the effect by whether the drop is in an outage. -/
theorem dropDisconnectEffects : Obligations.DropDisconnectEffects := by
  intro l tag args s h
  refine parsed_of_oneDropVerb rfl h fun d hact =>
    checked_of_verb rfl h hact (disconnectRefusal_firstOf (popLine l s) d) fun hacc hpassed => ?_
  have hopen : ¬4096 - s.bjn.held.length ≤ 256 := hpassed (_, .journal) (by simp)
  have hplace : ¬NoPlaceFor (s.drop d) s := hpassed (NoPlaceFor (s.drop d) s, .full) (by simp)
  have hclosing := disconnectEffect_closing d (s := popLine l s) hopen
  have hvacant := fun n => disconnectEffect_vacant d (s := popLine l s) hopen (n := n)
  generalize disconnectEffect d (popLine l s) = t at *
  refine ⟨fun ho => ?_, fun n ho => ?_⟩
  · obtain ⟨honly, hwrote, hother, hdrop⟩ := hclosing ho hplace
    exact accepts_of_serviceReply rfl h hacc honly (by simp) (congrArg (fun x => serviceWordsOf x.1) hdrop) fun o =>
      ⟨wrote_reply hwrote o, hother, hdrop⟩
  · obtain ⟨honly, hwrote, hother, hdrop, hqueue, holz⟩ := hvacant n ho
    exact accepts_of_serviceReply rfl h hacc honly (by simp) (by rw [hdrop]; rfl) fun o =>
      ⟨wrote_reply hwrote o, hother, hdrop, hqueue, holz⟩

/-! ## DROP.RESUME and DROP.REASSIGN -/

theorem proper_congr {s t : State} {d : Nat} (hdrop : t.drop d = s.drop d) (hppl : t.ppl = s.ppl)
    (holz : t.olz = s.olz) : t.proper d = s.proper d := by
  have hproper : t.properAt = s.properAt := funext (properAt_congr hppl holz)
  rw [State.proper, State.proper, hdrop, hproper]

section Resume

variable (d : Nat) (s : State)

/-- The drop that DROP.RESUME makes its request for (R72). -/
def resumedDrop : Drop :=
  { s.drop d with
    service := .active
    accrual := if (s.drop d).outage.any s.credits then some s.tmb.run else (s.drop d).accrual }

/-- The state that DROP.RESUME evaluates its drop in (R72, R134). -/
def resumed : State :=
  request .host false d (startAccrual d
    (recorded d { s.drop d with service := .active } (.resume d (s.drop d).account) s))

theorem resumeEffect_eq : resumeEffect d s = evaluateDrop d (resumed d s) := rfl

theorem startAccrual_drop : (startAccrual d s).drop d =
    { s.drop d with accrual := if (s.drop d).outage.any s.credits then some s.tmb.run else (s.drop d).accrual } := by
  unfold startAccrual
  dsimp only
  split_ifs <;> simp

theorem startAccrual_only : OnlyChanges [.dtb] s (startAccrual d s) := (setDrop_only d _ s).ite (OnlyChanges.refl _ s)

theorem startAccrual_onlyDrop : OnlyDrop d s (startAccrual d s) := by
  unfold startAccrual
  dsimp only
  split_ifs
  exacts [onlyDrop_of_setDrop d _ s, onlyDrop_refl d s]

theorem resumed_spec (hplace : ¬NoPlaceFor (s.drop d) s) :
    OnlyChanges [.dtb, .bjn, .attn, .queue] s (resumed d s)
      ∧ Wrote [.resume d (s.drop d).account] s (resumed d s) ∧ OnlyDrop d s (resumed d s)
      ∧ ((resumed d s).drop d, (resumed d s).aen.queue) = hostRequested d (resumedDrop d s) s.aen.queue := by
  have hrecorded := recorded_only d { s.drop d with service := .active } (.resume d (s.drop d).account) s
  have hrecord := recorded_drop d { s.drop d with service := .active } (.resume d (s.drop d).account) s
  have hwrote := recorded_wrote d { s.drop d with service := .active } (.resume d (s.drop d).account) s
  have hother := recorded_onlyDrop d { s.drop d with service := .active } (.resume d (s.drop d).account) s
  unfold resumed
  generalize recorded d { s.drop d with service := .active } (.resume d (s.drop d).account) s = u at *
  have haccrual := startAccrual_only d u
  have hrequest := request_only .host false d (startAccrual d u)
  have hqueue : (startAccrual d u).aen.queue = s.aen.queue :=
    Eq.trans (haccrual .queue (by simp)) (hrecorded .queue (by simp))
  have hcredits : u.credits = s.credits := funext (credits_congr (hrecorded .olz (by simp)))
  have htmb : u.tmb = s.tmb := hrecorded .tmb (by simp)
  have hdrop : (startAccrual d u).drop d = resumedDrop d s := by
    rw [startAccrual_drop, hrecord, hcredits, htmb]
    rfl
  have hplace' : ¬NoPlaceFor (resumedDrop d s) (startAccrual d u) := fun ⟨hfree, hnone, hfull⟩ =>
    hplace ⟨hfree, hnone, hqueue ▸ hfull⟩
  refine ⟨((hrecorded.mono (by simp)).trans (haccrual.mono (by simp))).trans (hrequest.mono (by simp)),
    wrote_frame hwrote (OnlyChanges.refl [] s) ((haccrual.mono (by simp)).trans hrequest) (by simp) (by simp),
    onlyDrop_trans hother (onlyDrop_trans (startAccrual_onlyDrop d u) (request_onlyDrop _ _ d _)), ?_⟩
  rw [request_host hdrop hplace', hqueue]

end Resume

theorem dropReassignVerb_of_unread {args : List Text} {s : State} (hs : s.saving = false)
    (ha : two (argNum 0 2047) (argNum 0 511) args = none) : dropReassignVerb args s = refuse .args s := by
  rcases args with _ | ⟨a, _ | ⟨b, _ | ⟨c, rest⟩⟩⟩
  · simp [dropReassignVerb, hs]
  · simp [dropReassignVerb, hs]
  · cases hd : argDrop a with
    | none => simp [dropReassignVerb, hs, hd]
    | some d =>
      have hd' : argNum 0 2047 a = some d := hd
      have hu : argUnit b = none := by simpa [two, hd', argUnit] using ha
      simp [dropReassignVerb, hs, hd, hu]
  · simp [dropReassignVerb, hs]

theorem dropReassignVerb_of_args {args : List Text} {s : State} {d u : Nat} (hs : s.saving = false)
    (ha : two (argNum 0 2047) (argNum 0 511) args = some (d, u)) : dropReassignVerb args s =
      (reassignRefusal s d u).elim (serviceReply d (reassignEffect d u s)) fun why => refuse why s := by
  obtain ⟨a, b, rfl, had, hau⟩ := two_eq_some.mp ha
  have hd : argDrop a = some d := had
  have hu : argUnit b = some u := hau
  cases hf : reassignRefusal s d u <;> simp [dropReassignVerb, hs, hd, hu, hf]

theorem reassignRefusal_firstOf (s : State) (d u : Nat) : FirstOf
    [((s.drop d).service = .vacant, .state), ((s.unit u).cfg.kind = .none, .args),
      ((s.drop d).link = some .parked ∧ s.properAt u = none ∧ 64 ≤ s.aen.queue.length, .full)]
    (reassignRefusal s d u) := by
  refine firstOf_ite Iff.rfl <| firstOf_ite ?_ <| firstOf_ite ?_ firstOf_nil
  · simp [PlantUnit.defined]
  · simp [State.queueFull, and_assoc]

section MarkStale

variable (d : Nat) (s : State)

theorem markStale_only : OnlyChanges [.dtb] s (markStale d s) := (setDrop_only d _ s).ite (OnlyChanges.refl _ s)

theorem markStale_onlyDrop : OnlyDrop d s (markStale d s) := by
  unfold markStale
  split
  exacts [onlyDrop_of_setDrop d _ s, onlyDrop_refl d s]

theorem markStale_drop : (markStale d s).drop d =
    if (s.drop d).link = some .awaiting then { s.drop d with stale := true } else s.drop d := by
  unfold markStale
  split_ifs
  · exact (drop_setDrop ..).trans (if_pos rfl)
  · rfl

end MarkStale

/-- Settles O33: DROP.RESUME by the state it evaluates its drop in, DROP.REASSIGN by the evaluation and the stale
mark. -/
theorem dropResumeAndReassign : Obligations.DropResumeAndReassign := by
  refine ⟨fun l tag args s h => ?_, fun l tag args s h => ?_⟩
  · have hproper : ∀ d, (popLine l s).proper d = s.proper d := fun d => proper_congr rfl rfl rfl
    refine parsed_of_oneDropVerb rfl h fun d hact => ?_
    have hchecks := resumeRefusal_firstOf (popLine l s) d
    rw [hproper] at hchecks
    refine checked_of_verb rfl h hact hchecks fun hacc hpassed => ?_
    obtain ⟨-, -, hroom, -⟩ := by simpa only [List.forall_mem_cons] using hpassed
    have hplace : ¬NoPlaceFor (s.drop d) s := fun ⟨hfree, hnone, hfull⟩ => hroom ⟨.inl ⟨hfree, hnone⟩, hfull⟩
    obtain ⟨honly, hwrote, hother, hdrop⟩ := resumed_spec d (popLine l s) hplace
    rw [resumeEffect_eq] at hacc
    generalize resumed d (popLine l s) = u at *
    have hcredits : (popLine l s).credits = s.credits := funext (credits_congr rfl)
    rw [resumedDrop, hcredits] at hdrop
    refine ⟨u, wrote_frame hwrote (popLine_only l s) (OnlyChanges.refl [] u) (by simp) (by simp), hother, hdrop,
      ((popLine_only l s).mono (by simp)).trans (honly.mono (by simp)), ?_⟩
    exact accepts_of_serviceReply rfl h hacc
      ((honly.mono (by simp)).trans ((evaluateDrop_only d u).mono (by simp))) (by simp) rfl fun o =>
      ((emit_only o _).mono (by simp)).trans ((report_only _).mono (by simp))
  · refine parsed_of_act rfl h (fun hs => by simp [dropReassignVerb, hs]) dropReassignVerb_of_unread
      fun (d, u) hs ha => ?_
    have hproper : (popLine l s).properAt u = s.properAt u := properAt_congr rfl rfl u
    have hchecks := reassignRefusal_firstOf (popLine l s) d u
    rw [hproper] at hchecks
    refine checked_of_verb rfl h (dropReassignVerb_of_args hs ha) hchecks fun hacc _ => ?_
    let w := (popLine l s).setDrop d { s.drop d with feed := some u }
    have heffect : reassignEffect d u (popLine l s) = markStale d (evaluateDrop d w) := rfl
    have hw : OnlyChanges [.dtb] (popLine l s) w := setDrop_only d _ _
    have heval := evaluateDrop_only d w
    rw [heffect] at hacc
    change Accepts _ _ _ (serviceWordsOf ((evaluateDrop d w).drop d)) _ _ fun t =>
      OnlyChanges [.office, .marks, .dtb] (evaluateDrop d w) t ∧ OnlyDrop d (evaluateDrop d w) t ∧ _
    generalize evaluateDrop d w = v at *
    have hstale := markStale_only d v
    refine accepts_of_serviceReply rfl h hacc
      (((hw.mono (by simp)).trans (heval.mono (by simp))).trans (hstale.mono (by simp))) (by simp) ?_ fun o =>
        ⟨(hstale.mono (by simp)).trans (((emit_only o _).mono (by simp)).trans ((report_only _).mono (by simp))),
          markStale_onlyDrop d v, markStale_drop d v⟩
    rw [markStale_drop]
    split <;> rfl

end Sys2Proof.Proofs

/-! PROOFS. The plant's verbs UNIT.SET (O35) and UNIT.SERVICE, with the application of a held change (O36). -/

namespace Sys2Proof.Proofs

open Sys2Proof Sys2Proof.Machine Sys2Proof.Laws

/-! ## Units and their paths -/

/-- A verb whose checks are its refusal, whatever its reply. -/
theorem checked_of_refusal {c : Instr} {v : Verb} {l : Lane} {tag : Byte} {args : List Text} {s : State}
    {act : List Text → State → State × Reply} {checks : List (Prop × Reason)} {f : Option Reason} {ok : Prop}
    {x : State × Reply} (hc : exec c s = dispatch v l act s) (h : Takes v l tag args s)
    (hact : act args (popLine l s) = f.elim x fun why => refuse why (popLine l s)) (hfirst : FirstOf checks f)
    (hok : act args (popLine l s) = x → ok) : Checked c l tag s checks ok :=
  checked_of_firstOf hfirst (fun _ hf => refuses_of_effect hc h (hact.trans (by rw [hf]; rfl)))
    fun hf => hok (hact.trans (by rw [hf]; rfl))

theorem mem_unitKeys {s : State} {u : Nat} (h : s.unit u ≠ PlantUnit.blank) : u ∈ s.unitKeys := by
  by_contra hu
  exact h (get_of_not_mem_keys _ hu)

theorem mem_unitKeys_of_kind {s : State} {u : Nat} (h : (s.unit u).cfg.kind ≠ .none) : u ∈ s.unitKeys :=
  mem_unitKeys fun hb => h (by rw [hb]; rfl)

/-- A path is made of the parents of the units on it (R104). -/
theorem pathFrom_of_parents {s t : State} (h : ∀ v, (t.unit v).cfg.parent = (s.unit v).cfg.parent) (fuel u : Nat) :
    pathFrom t fuel u = pathFrom s fuel u := by
  induction fuel generalizing u with
  | zero => rfl
  | succ fuel ih => simp only [pathFrom, h, ih]

theorem atOrBelow_of_parents {s t : State} (h : ∀ v, (t.unit v).cfg.parent = (s.unit v).cfg.parent) (u v : Nat) :
    t.atOrBelow u v = s.atOrBelow u v := by
  rw [State.atOrBelow, State.atOrBelow, State.path, State.path, pathFrom_of_parents h]

theorem underDeclared_iff {s : State} {u : Nat} : s.underDeclared u = true ↔
    ∃ o ∈ s.olz.log, o.state = .opened ∧ o.kind = .declared ∧ s.atOrBelow u o.root = true := by
  simp [State.underDeclared, and_assoc]

theorem underDeclared_congr {s t : State} (hlog : t.olz = s.olz)
    (hparent : ∀ v, (t.unit v).cfg.parent = (s.unit v).cfg.parent) (u : Nat) :
    t.underDeclared u = s.underDeclared u := by
  simp only [State.underDeclared, hlog, atOrBelow_of_parents hparent]

/-! ## The end of a poll (R116) -/

@[simp] theorem unit_removePoll (s : State) (v : Nat) : (removePoll s).unit v = s.unit v := by
  unfold removePoll
  split <;> rfl

/-- What the end of a poll leaves of the Plant Poller, beside a unit written before it. -/
theorem removePoll_setUnit_ppl (u : Nat) (r : PlantUnit) (s : State) : (removePoll (s.setUnit u r)).ppl =
    { pollEnded s with units := (removePoll (s.setUnit u r)).ppl.units } := by
  by_cases h : s.sst.runState = .run <;> simp [removePoll, pollEnded, State.setUnit, h]

theorem endPoll_unheld {p : Poll} (h : p.heldChange = false) (s : State) : endPoll p s = removePoll s := by
  simp [endPoll, h]

theorem endPoll_held {p : Poll} (h : p.heldChange = true) (s : State) :
    endPoll p s = applyHeld p.unit (removePoll s) := by simp [endPoll, h]

theorem pollOf_of_poll {s : State} {u : Nat} {p : Poll} (hp : s.ppl.poll = some p) (hu : p.unit = u) :
    s.pollOf u = some p := by simp [State.pollOf, hp, hu]

theorem pollOf_eq_none {s : State} {u : Nat} (h : ∀ p, s.ppl.poll = some p → p.unit ≠ u) : s.pollOf u = none := by
  simpa [State.pollOf, Option.filter_eq_none_iff] using h

/-! ## UNIT.SET -/

theorem parentFits_congr {s t : State} (h : t.ppl = s.ppl) (u : Nat) (kind : UnitKind) (parent : Option Nat) :
    parentFits t u kind parent = parentFits s u kind parent := by
  have hunit : t.unit = s.unit := funext fun v => by simp only [State.unit, h]
  have hkeys : t.unitKeys = s.unitKeys := by simp only [State.unitKeys, h]
  have hset : ∀ r v, (t.setUnit u r).unit v = (s.setUnit u r).unit v := fun r v => by
    simp only [unit_setUnit, hunit]
  unfold parentFits
  simp only [hunit, hkeys]
  simp only [pathFrom_of_parents fun v => congrArg (fun r : PlantUnit => r.cfg.parent) (hset _ v)]

theorem unitInUse_iff {s : State} {u : Nat} : unitInUse s u = true ↔
    (∃ d, (s.drop d).service ≠ .vacant ∧ (s.drop d).feed = some u)
      ∨ ∃ v, (s.unit v).cfg.kind ≠ .none ∧ (s.unit v).cfg.parent = some u := by
  have hdrops := any_keys_iff (blank := Drop.blank) (t := s.dtb.drops)
    (fun r => r.service != .vacant && r.feed == some u) rfl
  have hunits := any_keys_iff (blank := PlantUnit.blank) (t := s.ppl.units)
    (fun r => r.defined && r.cfg.parent == some u) rfl
  rw [unitInUse, Bool.or_eq_true]
  exact or_congr (by simpa [State.dropKeys, State.drop] using hdrops)
    (by simpa [State.unitKeys, State.unit, PlantUnit.defined] using hunits)

theorem otherUnitHasAddress_iff {s : State} {u : Nat} {a : Addr} : unitHasAddress s (some u) a = true ↔
    ∃ v, v ≠ u ∧ (s.unit v).cfg.kind ≠ .none ∧ (s.unit v).cfg.address = some a := by
  simp only [unitHasAddress, List.any_eq_true, PlantUnit.defined, Bool.and_eq_true, bne_iff_ne, beq_iff_eq,
    Option.some_inj.ne, and_assoc]
  exact ⟨fun ⟨v, _, hv⟩ => ⟨v, hv⟩, fun ⟨v, hv⟩ => ⟨v, mem_unitKeys_of_kind hv.2.1, hv⟩⟩

theorem unitSetRefusal_firstOf (s : State) (u : Nat) (kind : UnitKind) (parent : Option Nat) (address : Option Addr) :
    FirstOf [(parent ≠ (s.unit u).cfg.parent ∧ ∃ o ∈ s.olz.log, o.state ≠ .closed, .busy),
      (parentFits s u kind parent = false, .args),
      (kind = .none ∧ ((∃ d, (s.drop d).service ≠ .vacant ∧ (s.drop d).feed = some u)
        ∨ ∃ v, (s.unit v).cfg.kind ≠ .none ∧ (s.unit v).cfg.parent = some u), .inUse),
      (hasTransponder kind = false ∧ ∃ o ∈ s.olz.log, o.state ≠ .closed ∧ o.root = u, .inUse),
      (∃ a, address = some a
        ∧ ((∃ v, v ≠ u ∧ (s.unit v).cfg.kind ≠ .none ∧ (s.unit v).cfg.address = some a)
          ∨ ∃ d, (s.drop d).service ≠ .vacant ∧ (s.drop d).address = some a), .duplicate),
      (∃ a, address = some a ∧ (s.unit u).cfg.address ≠ some a ∧ ∃ w ∈ s.csc.windows, w.address = a, .busy)]
      (unitSetRefusal s u kind parent address) := by
  refine firstOf_ite ?_ <| firstOf_ite (by simp) <| firstOf_ite (and_congr_right fun _ => unitInUse_iff) <|
    firstOf_ite ?_ <| firstOf_ite ?_ <| firstOf_ite ?_ firstOf_nil
  · simp [Outage.live]
  · simp [Outage.live]
  · cases address <;> simp [otherUnitHasAddress_iff, dropHasAddress_iff]
  · cases address with
    | none => simp
    | some a =>
      simp only [Option.any_some, Bool.and_eq_true, bne_iff_ne, windowCarries, List.any_eq_true, beq_iff_eq,
        Option.some.injEq, exists_eq_left']

section UnitSet

variable (u : Nat) (kind : UnitKind) (parent : Option Nat) (address : Option Addr) (s : State)

/-- The state once UNIT.SET has written its unit (R107). -/
def unitWritten : State := s.setUnit u ((s.unit u).withKind kind parent address)

theorem unitWritten_only : OnlyChanges [.ppl] s (unitWritten u kind parent address s) := setUnit_only u _ s

variable {u kind parent address s}

theorem unitSetEffect_of_no_end
    (h : ∀ p, s.ppl.poll = some p → ¬(p.unit = u ∧ (kind ≠ (s.unit u).cfg.kind ∨ address ≠ (s.unit u).cfg.address))) :
    unitSetEffect u kind parent address s = unitWritten u kind parent address s := by
  cases hp : (s.setUnit u ((s.unit u).withKind kind parent address)).pollOf u with
  | none => simp only [unitSetEffect, hp]; rfl
  | some p =>
    obtain ⟨hpoll, hu⟩ := Option.filter_eq_some_iff.mp hp
    have hsame : ¬(kind ≠ (s.unit u).cfg.kind ∨ address ≠ (s.unit u).cfg.address) := fun hc =>
      h p hpoll ⟨by simpa using hu, hc⟩
    simp only [unitSetEffect, hp, if_neg hsame]
    rfl

theorem unitSetEffect_of_end {p : Poll} (hp : s.ppl.poll = some p)
    (h : p.unit = u ∧ (kind ≠ (s.unit u).cfg.kind ∨ address ≠ (s.unit u).cfg.address)) :
    unitSetEffect u kind parent address s = endPoll p (unitWritten u kind parent address s) := by
  obtain ⟨hu, hchanged⟩ := h
  have hof : (s.setUnit u ((s.unit u).withKind kind parent address)).pollOf u = some p := pollOf_of_poll hp hu
  simp only [unitSetEffect, hof, if_pos hchanged]
  rfl

end UnitSet

theorem unitSetVerb_of_args {args : List Text} {s : State} {u : Nat} {kind : UnitKind} {parent : Option Nat}
    {address : Option Addr} (hs : s.saving = false) (ha : argsUnitSet args = some (u, kind, parent, address)) :
    unitSetVerb args s = (unitSetRefusal s u kind parent address).elim
      (accept (unitSetEffect u kind parent address s)) fun why => refuse why s := by
  cases hf : unitSetRefusal s u kind parent address <;> simp [unitSetVerb, hs, ha, hf]

/-- Settles O35: the checks by `unitSetRefusal_firstOf`, then the effect by whether it ends the poll in progress. -/
theorem unitSetEffects : Obligations.UnitSetEffects := by
  intro l tag args s h
  refine parsed_of_act rfl h (fun hs => by simp [unitSetVerb, hs]) (fun hs ha => by simp [unitSetVerb, hs, ha])
    fun (u, kind, parent, address) hs ha => ?_
  have hchecks := unitSetRefusal_firstOf (popLine l s) u kind parent address
  rw [parentFits_congr rfl] at hchecks
  refine checked_of_refusal rfl h (unitSetVerb_of_args hs ha) hchecks fun hacc => ?_
  have hwritten := unitWritten_only u kind parent address (popLine l s)
  have hunit : ∀ v, (unitWritten u kind parent address (popLine l s)).unit v
      = if v = u then (s.unit u).withKind kind parent address else s.unit v := fun v => unit_setUnit (popLine l s) u v _
  refine ⟨fun hno => ?_, fun p hp hend hheld => ?_, fun p hp hend hheld => ?_⟩
  · rw [unitSetEffect_of_no_end (s := popLine l s) hno] at hacc
    exact accepts_of_effect rfl h hacc hwritten (by simp) ⟨rfl, hunit⟩
  · rw [unitSetEffect_of_end (s := popLine l s) hp hend, endPoll_unheld hheld] at hacc
    refine accepts_of_effect rfl h hacc ((hwritten.mono (by simp)).trans (removePoll_only _)) (by simp)
      ⟨removePoll_setUnit_ppl u _ (popLine l s), fun v => (unit_removePoll _ v).trans (hunit v)⟩
  · rw [unitSetEffect_of_end (s := popLine l s) hp hend, endPoll_held hheld, hend.1] at hacc
    have hremoved := removePoll_only (unitWritten u kind parent address (popLine l s))
    refine accepts_of_effect rfl h hacc ((hwritten.mono (by simp)).trans ((hremoved.mono (by simp)).trans
      ((applyHeld_only u _).mono (by simp)))) (by simp)
      ⟨removePoll (unitWritten u kind parent address (popLine l s)), ?_, removePoll_setUnit_ppl u _ (popLine l s),
        fun v => (unit_removePoll _ v).trans (hunit v), ?_⟩
    · exact ((popLine_only l s).mono (by simp)).trans ((hwritten.mono (by simp)).trans (hremoved.mono (by simp)))
    · exact ((emit_only _ _).mono (by simp)).trans ((report_only _).mono (by simp))

/-! ## Service and excuse (R108, R115, R116) -/

theorem dark_iff {r : PlantUnit} : r.dark = true ↔ r.state = .missing ∨ r.state = .silent := by simp [PlantUnit.dark]

/-- Unit `u` OUT_OF_SERVICE, before the report to OLZ. -/
def outOfService (u : Nat) (s : State) : State := s.setUnit u ((s.unit u).settledTo .outOfService)

theorem leaveService_eq (u : Nat) (s : State) : leaveService u s =
    if (s.unit u).state = .missing ∨ (s.unit u).state = .silent then unitRecovered u (outOfService u s)
    else outOfService u s := by
  simp only [leaveService, dark_iff]
  rfl

theorem applyHeld_undefined {u : Nat} {s : State} (h : (s.unit u).cfg.kind = .none) : applyHeld u s = s := by
  simp [applyHeld, PlantUnit.defined, h]

theorem applyHeld_out {u : Nat} {s : State} (hd : (s.unit u).cfg.kind ≠ .none)
    (hout : (s.unit u).cfg.inService = false) : applyHeld u s = leaveService u s := by
  simp [applyHeld, PlantUnit.defined, hd, hout]

theorem applyHeld_excused {u : Nat} {s : State} (hd : (s.unit u).cfg.kind ≠ .none)
    (hin : (s.unit u).cfg.inService = true) (h : s.underDeclared u = true) :
    applyHeld u s = s.setUnit u ((s.unit u).settledTo .excused) := by
  simp [applyHeld, PlantUnit.defined, hd, hin, h]

theorem applyHeld_same {u : Nat} {s : State} (hd : (s.unit u).cfg.kind ≠ .none)
    (hin : (s.unit u).cfg.inService = true) (h : ¬s.underDeclared u = true) : applyHeld u s = s := by
  simp [applyHeld, PlantUnit.defined, hd, hin, h]

theorem holdChange_open {p : Poll} (h : p.windowOpen = true) (s : State) :
    holdChange p s = s.setPoll (some { p with heldChange := true }) := by simp [holdChange, h]

theorem holdChange_closed {p : Poll} (h : p.windowOpen = false) (s : State) :
    holdChange p s = applyHeld p.unit (removePoll s) := by simp [holdChange, h, endPoll]

/-! ## UNIT.SERVICE -/

section UnitService

variable {u : Nat} {on : Bool} {s : State}

theorem unit_setInService (v : Nat) : (setInService on u s).unit v =
    if v = u then { s.unit u with cfg := { (s.unit u).cfg with inService := on } } else s.unit v :=
  unit_setUnit ..

theorem setInService_only (on : Bool) (u : Nat) (s : State) : OnlyChanges [.ppl] s (setInService on u s) :=
  setUnit_only u _ s

theorem underDeclared_setInService : (setInService on u s).underDeclared u = s.underDeclared u := by
  refine underDeclared_congr (s := s) (t := setInService on u s) rfl (fun v => ?_) u
  rw [unit_setInService]
  by_cases hv : v = u
  · rw [if_pos hv, hv]
  · rw [if_neg hv]

theorem unitServiceEffect_same (h : (s.unit u).cfg.inService = on) : unitServiceEffect u on s = s := if_pos h

variable (hchange : (s.unit u).cfg.inService ≠ on)

include hchange

/-- A unit that no poll is on takes the change at once (R108). -/
theorem unitServiceEffect_unpolled (h : ∀ p, s.ppl.poll = some p → p.unit ≠ u) : unitServiceEffect u on s =
    if on then (setInService on u s).setUnit u (((setInService on u s).unit u).settledTo
      (if s.underDeclared u then .excused else .unknown))
    else leaveService u (setInService on u s) := by
  have hof : (setInService on u s).pollOf u = none := pollOf_eq_none h
  simp only [unitServiceEffect, if_neg hchange, hof, underDeclared_setInService]

/-- The unit under poll takes the flag, and a change to OUT_OF_SERVICE is held or ends the poll (R116; log 24). -/
theorem unitServiceEffect_polled {p : Poll} (hp : s.ppl.poll = some p) (hu : p.unit = u) : unitServiceEffect u on s =
    if on then setInService on u s else holdChange p (setInService on u s) := by
  have hof : (setInService on u s).pollOf u = some p := pollOf_of_poll hp hu
  simp only [unitServiceEffect, if_neg hchange, hof]

end UnitService

/-- Unit `u` is written in `t`, and no other. -/
theorem unit_outOfService (u v : Nat) (s : State) : (outOfService u s).unit v =
    if v = u then (s.unit u).settledTo .outOfService else s.unit v := unit_setUnit ..

theorem unitServiceVerb_of_unread {args : List Text} {s : State} (hs : s.saving = false)
    (ha : two (argNum 0 511) argFlag args = none) : unitServiceVerb args s = refuse .args s := by
  rcases args with _ | ⟨a, _ | ⟨b, _ | ⟨c, rest⟩⟩⟩
  · simp [unitServiceVerb, hs]
  · simp [unitServiceVerb, hs]
  · cases hu : argUnit a with
    | none => simp [unitServiceVerb, hs, hu]
    | some u =>
      have hu' : argNum 0 511 a = some u := hu
      have hon : argFlag b = none := by simpa [two, hu'] using ha
      simp [unitServiceVerb, hs, hu, hon]
  · simp [unitServiceVerb, hs]

theorem unitServiceVerb_of_args {args : List Text} {s : State} {u : Nat} {on : Bool} (hs : s.saving = false)
    (ha : two (argNum 0 511) argFlag args = some (u, on)) : unitServiceVerb args s =
      if (s.unit u).cfg.kind = .none then refuse .args s else accept (unitServiceEffect u on s) := by
  obtain ⟨a, b, rfl, hau, hon⟩ := two_eq_some.mp ha
  have hu : argUnit a = some u := hau
  by_cases hk : (s.unit u).cfg.kind = .none <;> simp [unitServiceVerb, hs, hu, hon, PlantUnit.defined, hk]

/-- What follows the effect of a verb does not touch its parts. -/
theorem reply_only (o : OutLine) (s : State) : OnlyChanges [.office, .marks] s (emit o s).report :=
  ((emit_only o s).mono (by simp)).trans ((report_only _).mono (by simp))

/-- UNIT.SERVICE takes unit `u` out of service from a state `w` in which the flag is written (R108, R115). -/
theorem accepts_leaveService {l : Lane} {tag : Byte} {args : List Text} {s w : State} {u : Nat} {p : Ppl}
    (h : Takes .unitService l tag args s) (hacc : unitServiceVerb args (popLine l s) = accept (leaveService u w))
    (hw : OnlyChanges [.ppl] (popLine l s) w) (hppl : w.ppl = { p with units := w.ppl.units })
    (hunit : ∀ v, w.unit v = if v = u then { s.unit u with cfg := { (s.unit u).cfg with inService := false } }
      else s.unit v) :
    Accepts (.unitService l) l tag (.ok []) s [.ppl, .olz, .attn] fun t =>
      ∃ v, OnlyChanges [.office, .ppl] s v ∧ v.ppl = { p with units := v.ppl.units }
        ∧ (∀ j, v.unit j = if j = u then { s.unit u with
            cfg := { (s.unit u).cfg with inService := false }, state := .outOfService, missed := 0
            missingSince := none, unlogged := false } else s.unit j)
        ∧ OnlyChanges [.office, .marks]
            (if (s.unit u).state = .missing ∨ (s.unit u).state = .silent then unitRecovered u v else v) t := by
  have hstate : (w.unit u).state = (s.unit u).state := by rw [hunit, if_pos rfl]
  have hout : OnlyChanges [.ppl] w (outOfService u w) := setUnit_only u _ w
  refine accepts_of_effect rfl h hacc ((hw.mono (by simp)).trans ((leaveService_only u w).mono (by simp))) (by simp)
    ⟨outOfService u w, ?_, ?_, fun j => ?_, ?_⟩
  · exact ((popLine_only l s).mono (by simp)).trans ((hw.mono (by simp)).trans (hout.mono (by simp)))
  · exact congrArg (fun x : Ppl => { x with units := (outOfService u w).ppl.units }) hppl
  · rw [unit_outOfService, hunit, if_pos rfl]
    split
    · rfl
    · next hj => rw [hunit, if_neg hj]
  · rw [leaveService_eq, hstate]
    exact reply_only _ _

/-- Settles O36: UNIT.SERVICE by whether a poll is on the unit, and `applyHeld` by the unit as it stands. -/
theorem unitServiceEffects : Obligations.UnitServiceEffects := by
  refine ⟨fun l tag args s h => ?_, fun u s => ⟨applyHeld_undefined, fun hd hout => ?_, fun hd hin hdecl => ?_,
    fun hd hin hdecl => applyHeld_same hd hin (mt underDeclared_iff.mp hdecl)⟩⟩
  · refine parsed_of_act rfl h (fun hs => by simp [unitServiceVerb, hs]) unitServiceVerb_of_unread
      fun (u, on) hs ha => ⟨fun hnone => refuses_of_effect rfl h ((unitServiceVerb_of_args hs ha).trans (if_pos hnone)),
        fun hdefined => ?_⟩
    have hacc := (unitServiceVerb_of_args hs ha).trans (if_neg hdefined)
    have hflag := setInService_only on u (popLine l s)
    have hunit : ∀ v, (setInService on u (popLine l s)).unit v = if v = u then
        { s.unit u with cfg := { (s.unit u).cfg with inService := on } } else s.unit v := fun v => unit_setInService v
    refine ⟨fun hsame => ?_, fun hchange hon hno => ?_, fun hchange hoff hno => ?_, fun p hp hu hchange hheld => ?_,
      fun p hp hu hchange hoff hclosed => ?_⟩
    · rw [unitServiceEffect_same (s := popLine l s) hsame] at hacc
      exact accepts_of_effect rfl h hacc (OnlyChanges.refl [] _) (by simp) trivial
    · rw [unitServiceEffect_unpolled (s := popLine l s) hchange hno, if_pos hon] at hacc
      refine accepts_of_effect rfl h hacc (hflag.trans (setUnit_only u _ _)) (by simp) ⟨rfl, fun v => ?_⟩
      have hdecl : ((popLine l s).underDeclared u = true) = _ :=
        (congrArg (· = true) (underDeclared_congr (s := s) (t := popLine l s) rfl (fun _ => rfl) u)).trans (propext underDeclared_iff)
      refine (unit_setUnit ..).trans ?_
      simp only [hunit, hdecl, if_true]
      split
      · rfl
      · rfl
    · subst hoff
      rw [unitServiceEffect_unpolled (s := popLine l s) hchange hno, if_neg (by simp)] at hacc
      exact accepts_leaveService h hacc hflag rfl hunit
    · rw [unitServiceEffect_polled (s := popLine l s) hchange hp hu] at hacc
      cases on with
      | true =>
        refine accepts_of_effect rfl h hacc hflag (by simp) ⟨?_, hunit⟩
        exact congrArg (fun x => { s.ppl with
          units := (setInService true u (popLine l s)).ppl.units, poll := x }) hp
      | false =>
        have hopen : p.windowOpen = true := by simpa using hheld
        rw [if_neg (by simp), holdChange_open hopen] at hacc
        exact accepts_of_effect rfl h hacc (hflag.trans (setPoll_only _ _)) (by simp) ⟨rfl, hunit⟩
    · subst hoff
      have hkind : ((removePoll (setInService false u (popLine l s))).unit u).cfg.kind ≠ .none := by
        rw [unit_removePoll, hunit, if_pos rfl]
        exact hdefined
      have hservice : ((removePoll (setInService false u (popLine l s))).unit u).cfg.inService = false := by
        rw [unit_removePoll, hunit, if_pos rfl]
      rw [unitServiceEffect_polled (s := popLine l s) hchange hp hu, if_neg (by simp), holdChange_closed hclosed, hu,
        applyHeld_out hkind hservice] at hacc
      exact accepts_leaveService h hacc (hflag.trans (removePoll_only _)) (removePoll_setUnit_ppl u _ (popLine l s))
        fun v => (unit_removePoll _ v).trans (hunit v)
  · refine ⟨outOfService u s, ⟨setUnit_only u _ s, rfl, fun j => unit_outOfService u j s⟩, ?_⟩
    rw [applyHeld_out hd hout, leaveService_eq]
  · rw [applyHeld_excused hd hin (underDeclared_iff.mpr hdecl)]
    exact ⟨setUnit_only u _ s, rfl, fun j => unit_setUnit ..⟩

end Sys2Proof.Proofs

/-! PROOFS. What OLZ does with PPL's reports (O38), and OUTAGE.DECLARE and OUTAGE.END (O37). -/

namespace Sys2Proof.Proofs

open Sys2Proof Sys2Proof.Machine Sys2Proof.Laws

/-! ## Units written in turn -/

/-- Of the Plant Poller the units alone have changed. -/
def UnitsOnly (s t : State) : Prop := t.ppl = { s.ppl with units := t.ppl.units }

theorem unitsOnly_trans {s t u : State} (h : UnitsOnly s t) (g : UnitsOnly t u) : UnitsOnly s u :=
  Eq.trans g (congrArg (fun p : Ppl => { p with units := u.ppl.units }) h)

theorem unitsOnly_foldl {f : State → Nat → State} (hf : ∀ s u, UnitsOnly s (f s u)) (us : List Nat) (s : State) :
    UnitsOnly s (us.foldl f s) := by
  induction us generalizing s with
  | nil => rfl
  | cons u us ih => exact unitsOnly_trans (hf s u) (ih (f s u))

/-- Writing the listed units in turn, each as `g` of what it is, writes each once. -/
theorem unit_foldl {f : State → Nat → State} {g : PlantUnit → PlantUnit}
    (hf : ∀ s u v, (f s u).unit v = if v = u then g (s.unit v) else s.unit v) (hg : ∀ r, g (g r) = g r)
    (us : List Nat) (s : State) (v : Nat) :
    (us.foldl f s).unit v = if v ∈ us then g (s.unit v) else s.unit v := by
  induction us generalizing s with
  | nil => simp
  | cons u us ih =>
    rw [List.foldl_cons, ih, hf]
    by_cases hv : v = u <;> by_cases hmem : v ∈ us <;> simp [hv, hmem, hg]

/-! ## A unit enters SILENT (R122) -/

theorem enteredSilent_rooted {u : Nat} {s : State} (h : Rooted s u) : enteredSilent u s = s :=
  if_pos ((explained_iff s u).mpr h)

theorem enteredSilent_full {u : Nat} {s : State} (h : ¬Rooted s u) (hfull : ¬LogHasRoom s) :
    enteredSilent u s = flagUnlogged u s :=
  (if_neg (mt (explained_iff s u).mp h)).trans (if_neg (mt (hasRoom_iff s).mp hfull))

theorem enteredSilent_opens {u : Nat} {s : State} (h : ¬Rooted s u) (hroom : LogHasRoom s) :
    enteredSilent u s = openSilent u s :=
  (if_neg (mt (explained_iff s u).mp h)).trans (if_pos ((hasRoom_iff s).mpr hroom))

theorem flagUnlogged_raised (u : Nat) (s : State) : Raised [.outage] s (flagUnlogged u s) := raised_raise _ _ _ rfl

theorem flagUnlogged_written (u : Nat) (s : State) : UnloggedWritten u true s (flagUnlogged u s) :=
  setUnlogged_spec true u s

/-! ## A unit recovers (R124) -/

theorem recordAt_eq_none {r : Nat} {s : State}
    (h : ∀ o ∈ s.olz.log, ¬(o.state = .opened ∧ o.kind = .silent ∧ o.root = r)) : unitRecovered r s = s := by
  have hnone : s.olz.log.find? (fun o => o.state == .opened && o.kind == .silent && o.root == r) = none := by
    simpa [List.find?_eq_none, and_assoc] using h
  rw [unitRecovered, hnone]

theorem unitRecovered_of_record {o : Outage} {before after : List Outage} {s : State}
    (hlog : s.olz.log = before ++ [o] ++ after)
    (hfirst : ∀ x ∈ before, ¬(x.state = .opened ∧ x.kind = .silent ∧ x.root = o.root))
    (ho : o.state = .opened) (hk : o.kind = .silent) : unitRecovered o.root s = endSilent o s := by
  have hsome : s.olz.log.find? (fun x => x.state == .opened && x.kind == .silent && x.root == o.root) = some o := by
    have hnone : before.find? (fun x => x.state == .opened && x.kind == .silent && x.root == o.root) = none := by
      simpa [List.find?_eq_none, and_assoc] using hfirst
    rw [hlog, List.append_assoc, List.find?_append, hnone]
    simp [ho, hk]
  rw [unitRecovered, hsome]

/-- The end of the OPEN SILENT record `o`, `x` being what the opening of the splits gave. -/
def silentEnded (o : Outage) (x : State × List Nat × List Nat) : State :=
  clearRecord o.number (if x.2.1 = [] then .cleared else .split) (x.2.1.take 8) (decide (8 < x.2.1.length)) x.1

theorem endSilent_eq (o : Outage) (s : State) : endSilent o s =
    let x := openSplits o (splitRoots s o.root) s
    (x.2.2.filter fun u => (s.unit u).state == .silent).foldl (fun s u => flagUnlogged u s) (silentEnded o x) := by
  unfold endSilent silentEnded
  dsimp only
  cases (openSplits o (splitRoots s o.root) s).2.1 <;> rfl

theorem openSplits_left (o : Outage) (us : List Nat) (s : State) :
    (openSplits o us s).2.2 = us.drop (openSplits o us s).2.1.length := by
  induction us generalizing s with
  | nil => rfl
  | cons u us ih =>
    unfold openSplits
    split
    · exact ih _
    · rfl

theorem raised_of_splitsOpened {o : Outage} {us ns : List Nat} {s t u : State} (h : SplitsOpened o us ns s t)
    (hr : Raised [.outage] t u) : Raised [.outage] s u := by
  induction us generalizing ns s with
  | nil =>
    obtain ⟨-, rfl⟩ := h
    exact hr
  | cons v us ih =>
    cases ns with
    | nil =>
      obtain ⟨-, rfl⟩ := h
      exact hr
    | cons n ns =>
      obtain ⟨-, m, -, -, -, hm, -, hrest⟩ := h
      exact raised_outage_trans hm (ih hrest)

theorem unitsOnly_of_splitsOpened {o : Outage} {us ns : List Nat} {s t : State} (h : SplitsOpened o us ns s t) :
    UnitsOnly s t := by
  induction us generalizing ns s with
  | nil =>
    obtain ⟨-, rfl⟩ := h
    rfl
  | cons v us ih =>
    cases ns with
    | nil =>
      obtain ⟨-, rfl⟩ := h
      rfl
    | cons n ns =>
      obtain ⟨-, m, -, -, -, -, ⟨hm, -⟩, hrest⟩ := h
      exact unitsOnly_trans hm (ih hrest)

theorem raised_foldl_flagUnlogged {us : List Nat} {s t : State} (h : Raised [.outage] s t) :
    Raised [.outage] s (us.foldl (fun s u => flagUnlogged u s) t) := by
  induction us generalizing t with
  | nil => exact h
  | cons u us ih => exact ih (raised_outage_trans h (flagUnlogged_raised u t))

theorem endedAs_congr {s t : State} (h : t.tmb = s.tmb) (reason : CloseReason) (ns : List Nat) (more : Bool)
    (o : Outage) : o.endedAs reason ns more t = o.endedAs reason ns more s := by
  simp only [Outage.endedAs, h]

theorem mem_splitRoots {s : State} {r u : Nat} : u ∈ splitRoots s r ↔ s.below u r = true
    ∧ ((s.unit u).state = .missing ∨ (s.unit u).state = .silent)
    ∧ ∀ v ∈ (s.path u).takeWhile (fun v => v != r), v ≠ u →
        ¬((s.unit v).state = .missing ∨ (s.unit v).state = .silent) := by
  have hkeys : (s.unit u).state = .missing ∨ (s.unit u).state = .silent → u ∈ s.unitKeys := fun hdark =>
    mem_unitKeys fun hb => by simp [hb, PlantUnit.blank] at hdark
  simp only [splitRoots, List.mem_filter, Bool.and_eq_true, Bool.not_eq_true', dark_iff, and_assoc,
    List.any_eq_false, bne_iff_ne, not_and]
  exact ⟨fun ⟨_, h⟩ => h, fun ⟨hbelow, hdark, hpath⟩ => ⟨hkeys hdark, hbelow, hdark, hpath⟩⟩

theorem unitKeys_pairwise {s : State} (h : Table.wf (fun _ => PlantUnit.blank) s.ppl.units) :
    s.unitKeys.Pairwise (· < ·) := List.pairwise_map.mpr h.1

/-- What the end of a SILENT record leaves, by the records its split has opened (R124). -/
theorem endSilent_spec (o : Outage) (s : State) : ∃ ns m, SplitsOpened o (splitRoots s o.root) ns s m
    ∧ OnlyChanges [.olz, .attn, .ppl] s (endSilent o s) ∧ Raised [.outage] s (endSilent o s)
    ∧ (endSilent o s).olz = { m.olz with
        settle := insertNumber o.number m.olz.settle
        log := m.olz.log.map fun x => if x.number = o.number then
            x.endedAs (if ns = [] then .cleared else .split) (ns.take 8) (decide (8 < ns.length)) s
          else x }
    ∧ UnitsOnly s (endSilent o s)
    ∧ ∀ v, (endSilent o s).unit v =
        if v ∈ (splitRoots s o.root).drop ns.length ∧ (s.unit v).state = .silent then
          { m.unit v with unlogged := true } else m.unit v := by
  have honly := (endSilent_only o s).mono (qs := [.olz, .attn, .ppl]) (by simp)
  have hopened := openSplits_spec o (splitRoots s o.root) s
  have hleft := openSplits_left o (splitRoots s o.root) s
  have htmb : (openSplits o (splitRoots s o.root) s).1.tmb = s.tmb := openSplits_only o _ s .tmb (by simp)
  rw [endSilent_eq] at *
  generalize openSplits o (splitRoots s o.root) s = x at *
  have hflags := fun u (t : State) => (flagUnlogged_only u t : OnlyChanges [.ppl, .attn] t (flagUnlogged u t))
  have hsplit : UnitsOnly s x.1 := unitsOnly_of_splitsOpened hopened
  refine ⟨x.2.1, x.1, hopened, honly, ?_, ?_, ?_, fun v => ?_⟩
  · exact raised_of_splitsOpened hopened (raised_foldl_flagUnlogged (clearRecord_raised _ _ _ _ _))
  · have holz := OnlyChanges.foldl (fun s u => flagUnlogged u s) (fun t u => hflags u t)
      (x.2.2.filter fun u => (s.unit u).state == .silent) (silentEnded o x) .olz (by simp)
    refine Eq.trans holz ?_
    have hended := fun y : Outage => endedAs_congr htmb (if x.2.1 = [] then .cleared else .split) (x.2.1.take 8)
      (decide (8 < x.2.1.length)) y
    simp only [← hended]
    rfl
  · exact unitsOnly_trans hsplit (unitsOnly_foldl (fun t u => (flagUnlogged_written u t).1) _ _)
  · refine (unit_foldl (g := fun r => { r with unlogged := true }) (fun t u v => ?_) (fun _ => rfl) _ _ v).trans ?_
    · obtain ⟨-, hunit⟩ := flagUnlogged_written u t
      rw [hunit]
      split
      · next hv => rw [hv]
      · rfl
    · rw [hleft]
      simp only [List.mem_filter, beq_iff_eq]
      rfl

/-- With no dark unit below its root a record ends CLEARED, and no record is opened (R124). -/
theorem endSilent_undivided {o : Outage} {s : State} (h : splitRoots s o.root = []) :
    endSilent o s = clearRecord o.number .cleared [] false s := by
  rw [endSilent_eq, h]
  rfl

/-! ## A record becomes CLOSED (R123, R130) -/

/-- The record has become CLOSED, before the search. -/
def recordClosed (n : Nat) (s : State) : State :=
  let t := mapRecord n (fun o => { o with state := .closed }) s
  raise .outage { t with olz := { t.olz with closedOrder := t.olz.closedOrder ++ [n] } }

theorem closeRecord_eq (n : Nat) (s : State) : closeRecord n s = searchUnlogged (recordClosed n s) := rfl

theorem recordClosed_only (n : Nat) (s : State) : OnlyChanges [.olz, .attn] s (recordClosed n s) :=
  ((mapRecord_only n _ s).mono (by simp)).trans (((only_olz _ _).mono (by simp)).trans ((raise_only _ _).mono (by simp)))

/-- Settles O38: the reports by what the log holds on the unit's path, the end of a record by `endSilent_spec`, and the
search by `searchUnlogged_spec`. -/
theorem reportsToTheLocalizer : Obligations.ReportsToTheLocalizer := by
  refine ⟨fun u s h => enteredSilent_rooted h, fun u s h hfull => ?_, fun u s h hroom => ?_, fun u s h =>
    recordAt_eq_none h, fun o before after s hlog hfirst ho hk => ⟨fun hlit => ?_, ?_⟩, fun r s => ⟨fun u =>
    mem_splitRoots, fun h => (unitKeys_pairwise h).filter _⟩, fun n s => ⟨recordClosed n s, recordClosed_only n s,
    raised_raise _ _ _ rfl, rfl, searchUnlogged_spec _ _⟩⟩
  · rw [enteredSilent_full h hfull]
    exact ⟨flagUnlogged_only u s, flagUnlogged_raised u s, flagUnlogged_written u s⟩
  · rw [enteredSilent_opens h hroom]
    exact openSilent_spec u s
  · have hundivided : splitRoots s o.root = [] := List.eq_nil_iff_forall_not_mem.mpr fun v hv => by
      obtain ⟨hbelow, hdark, -⟩ := mem_splitRoots.mp hv
      obtain ⟨hmissing, hsilent⟩ := hlit v hbelow
      exact hdark.elim hmissing hsilent
    rw [unitRecovered_of_record hlog hfirst ho hk, endSilent_undivided hundivided]
    exact ⟨clearRecord_only _ _ _ _ s, clearRecord_raised _ _ _ _ s, rfl⟩
  · rw [unitRecovered_of_record hlog hfirst ho hk]
    exact endSilent_spec o s

/-! ## PPL excuses units (R109, R116) -/

/-- The unit takes its excuse only when its poll is over: it is under poll with an open window. -/
def UnderOpenPoll (s : State) (v : Nat) : Prop := ∃ p, s.ppl.poll = some p ∧ p.unit = v ∧ p.windowOpen = true

/-- PPL, its units aside, once the units in `us` are excused (R116): a poll on one of them holds the change while its
window is open, and otherwise ends. -/
def pollExcused (us : List Nat) (s : State) : Ppl :=
  match s.ppl.poll with
  | none => s.ppl
  | some p =>
    if p.unit ∉ us then s.ppl
    else if p.windowOpen then { s.ppl with poll := some { p with heldChange := true } }
    else pollEnded s

section PollExcused

variable {us : List Nat} {s : State}

theorem pollExcused_untouched (h : ∀ p, s.ppl.poll = some p → p.unit ∉ us) : pollExcused us s = s.ppl := by
  unfold pollExcused
  split
  · rfl
  · next p hp => exact if_pos (h p hp)

theorem pollExcused_open {p : Poll} (hp : s.ppl.poll = some p) (hu : p.unit ∈ us) (ho : p.windowOpen = true) :
    pollExcused us s = { s.ppl with poll := some { p with heldChange := true } } := by
  simp [pollExcused, hp, hu, ho]

theorem pollExcused_closed {p : Poll} (hp : s.ppl.poll = some p) (hu : p.unit ∈ us) (ho : p.windowOpen = false) :
    pollExcused us s = pollEnded s := by
  simp [pollExcused, hp, hu, ho]

end PollExcused

/-- The unit `u` as a declaration excuses it: defined, in service and under an OPEN DECLARED root. -/
def Excusable (s : State) (u : Nat) : Prop :=
  (s.unit u).cfg.kind ≠ .none ∧ (s.unit u).cfg.inService = true ∧ s.underDeclared u = true

/-- The units in `us` have been excused, and the poll has taken it. -/
def ExcusedAll (us : List Nat) (s t : State) : Prop :=
  OnlyChanges [.ppl] s t ∧ t.ppl = { pollExcused us s with units := t.ppl.units }
    ∧ (∀ v, v ∈ us → ¬UnderOpenPoll s v → t.unit v = (s.unit v).settledTo .excused)
    ∧ ∀ v, v ∉ us ∨ UnderOpenPoll s v → t.unit v = s.unit v

section Excuse

variable {u : Nat} {s : State}

theorem excuseUnit_unpolled (h : ∀ p, s.ppl.poll = some p → p.unit ≠ u) :
    excuseUnit u s = s.setUnit u ((s.unit u).settledTo .excused) := by
  rw [excuseUnit, pollOf_eq_none h]

theorem excuseUnit_open {p : Poll} (hp : s.ppl.poll = some p) (hu : p.unit = u) (ho : p.windowOpen = true) :
    excuseUnit u s = s.setPoll (some { p with heldChange := true }) := by
  rw [excuseUnit, pollOf_of_poll hp hu]
  exact holdChange_open ho s

theorem excuseUnit_closed {p : Poll} (hp : s.ppl.poll = some p) (hu : p.unit = u) (ho : p.windowOpen = false)
    (he : Excusable s u) :
    excuseUnit u s = (removePoll s).setUnit u ((s.unit u).settledTo .excused) := by
  obtain ⟨hkind, hservice, hdecl⟩ := he
  have hunit := unit_removePoll s u
  have hdecl' : (removePoll s).underDeclared u = true := by
    rw [← hdecl]
    exact underDeclared_congr (removePoll_only s .olz (by simp)) (fun v => by rw [unit_removePoll]) u
  rw [excuseUnit, pollOf_of_poll hp hu]
  change holdChange p s = _
  rw [holdChange_closed ho, hu, applyHeld_excused (by rwa [hunit]) (by rwa [hunit]) hdecl', hunit]

theorem removePoll_ppl (s : State) : (removePoll s).ppl = pollEnded s := by
  unfold removePoll pollEnded
  split <;> rfl

theorem pollEnded_poll (s : State) : (pollEnded s).poll = none := by
  unfold pollEnded
  split <;> rfl

/-- One unit excused. -/
theorem excusedAll_excuseUnit (he : Excusable s u) : ExcusedAll [u] s (excuseUnit u s) := by
  cases hp : s.ppl.poll with
  | none =>
    rw [excuseUnit_unpolled (by simp [hp])]
    refine ⟨setUnit_only u _ s, ?_, fun v hv _ => ?_, fun v hv => ?_⟩
    · simp [pollExcused, hp, State.setUnit]
    · obtain rfl := List.mem_singleton.mp hv
      simp
    · have hne : v ≠ u := by simpa [UnderOpenPoll, hp] using hv
      simp [hne]
  | some p =>
    by_cases hu : p.unit = u
    · cases ho : p.windowOpen with
      | true =>
        have hopen : UnderOpenPoll s u := ⟨p, hp, hu, ho⟩
        rw [excuseUnit_open hp hu ho]
        refine ⟨setPoll_only _ s, ?_, fun v hv hno => ?_, fun v _ => rfl⟩
        · simp [pollExcused, hp, hu, ho, State.setPoll]
        · exact absurd (List.mem_singleton.mp hv ▸ hopen) hno
      | false =>
        rw [excuseUnit_closed hp hu ho he]
        refine ⟨(removePoll_only s).trans (setUnit_only u _ _), ?_, fun v hv _ => ?_, fun v hv => ?_⟩
        · simp only [pollExcused, hp, hu, ho, List.mem_singleton, not_true_eq_false, if_false, Bool.false_eq_true,
            ← removePoll_ppl]
          rfl
        · obtain rfl := List.mem_singleton.mp hv
          simp
        · have hne : v ≠ u := by
            rcases hv with hv | ⟨q, hq, hqv, hqo⟩
            · simpa using hv
            · rintro rfl
              simp_all
          simp [hne]
    · rw [excuseUnit_unpolled (fun q hq => by simp_all)]
      refine ⟨setUnit_only u _ s, ?_, fun v hv _ => ?_, fun v hv => ?_⟩
      · simp [pollExcused, hp, hu, State.setUnit]
      · obtain rfl := List.mem_singleton.mp hv
        simp
      · have hne : v ≠ u := by
          rcases hv with hv | ⟨q, hq, hqv, -⟩
          · simpa using hv
          · rintro rfl
            simp_all
        simp [hne]

end Excuse

theorem ExcusedAll.cfg {us : List Nat} {s t : State} (h : ExcusedAll us s t) (v : Nat) :
    (t.unit v).cfg = (s.unit v).cfg := by
  obtain ⟨-, -, hexcused, hkept⟩ := h
  by_cases hv : v ∉ us ∨ UnderOpenPoll s v
  · rw [hkept v hv]
  · obtain ⟨hmem, hopen⟩ := not_or.mp hv
    rw [hexcused v (not_not.mp hmem) hopen]
    rfl

theorem ExcusedAll.excusable {us : List Nat} {s t : State} (h : ExcusedAll us s t) {v : Nat} (hv : Excusable s v) :
    Excusable t v := by
  obtain ⟨hkind, hservice, hdecl⟩ := hv
  have hcfg := h.cfg
  refine ⟨by rwa [hcfg], by rwa [hcfg], ?_⟩
  rw [← hdecl]
  exact underDeclared_congr (h.1 .olz (by simp)) (fun w => by rw [hcfg]) v

section ExcusedTwice

variable {u : Nat} {s m : State} {x : Table PlantUnit} (hsst : m.sst = s.sst)
  (hppl : m.ppl = { pollExcused [u] s with units := x })

include hppl

theorem underOpenPoll_excused (v : Nat) : UnderOpenPoll m v ↔ UnderOpenPoll s v := by
  cases hp : s.ppl.poll with
  | none => simp [UnderOpenPoll, hppl, pollExcused, hp]
  | some p =>
    by_cases hu : p.unit = u
    · cases ho : p.windowOpen with
      | true => simp [UnderOpenPoll, hppl, pollExcused, hp, hu, ho]
      | false => simp [UnderOpenPoll, hppl, pollExcused, hp, hu, ho, pollEnded_poll]
    · simp [UnderOpenPoll, hppl, pollExcused, hp, hu]

include hsst

theorem pollExcused_cons (us : List Nat) : pollExcused us m = { pollExcused (u :: us) s with units := x } := by
  cases hp : s.ppl.poll with
  | none => simp [pollExcused, hppl, hp]
  | some p =>
    by_cases hu : p.unit = u
    · cases ho : p.windowOpen with
      | true => by_cases hus : u ∈ us <;> simp [pollExcused, hppl, hp, hu, ho, hus]
      | false => simp [pollExcused, hppl, hp, hu, ho, pollEnded_poll]
    · by_cases hus : p.unit ∈ us
      · cases ho : p.windowOpen with
        | true => simp [pollExcused, hppl, hp, hu, ho, hus]
        | false => by_cases hr : s.sst.runState = .run <;> simp [pollExcused, pollEnded, hppl, hsst, hp, hu, ho, hus, hr]
      · simp [pollExcused, hppl, hp, hu, hus]

end ExcusedTwice

/-- Excusing one unit and then others is excusing them all. -/
theorem excusedAll_cons {u : Nat} {us : List Nat} {s m t : State} (h : ExcusedAll [u] s m) (g : ExcusedAll us m t) :
    ExcusedAll (u :: us) s t := by
  obtain ⟨honly, hpoll, hexcused, hkept⟩ := h
  obtain ⟨honly', hpoll', hexcused', hkept'⟩ := g
  have hopen := underOpenPoll_excused hpoll
  refine ⟨honly.trans honly', ?_, fun v hv hno => ?_, fun v hv => ?_⟩
  · rw [pollExcused_cons (honly .sst (by simp)) hpoll] at hpoll'
    exact hpoll'
  · have hno' : ¬UnderOpenPoll m v := mt (hopen v).mp hno
    by_cases hu : v = u
    · have hm : m.unit v = (s.unit v).settledTo .excused := hexcused v (List.mem_singleton.mpr hu) hno
      by_cases hus : v ∈ us
      · rw [hexcused' v hus hno', hm]
        rfl
      · rw [hkept' v (.inl hus), hm]
    · rw [hexcused' v ((List.mem_cons.mp hv).resolve_left hu) hno', hkept v (.inl (mt List.mem_singleton.mp hu))]
  · rcases hv with hv | hv
    · obtain ⟨hu, hus⟩ := not_or.mp (mt List.mem_cons.mpr hv)
      rw [hkept' v (.inl hus), hkept v (.inl (mt List.mem_singleton.mp hu))]
    · rw [hkept' v (.inr ((hopen v).mpr hv)), hkept v (.inr hv)]

theorem excusedAll_foldl {us : List Nat} {s : State} (h : ∀ u ∈ us, Excusable s u) :
    ExcusedAll us s (us.foldl (fun s u => excuseUnit u s) s) := by
  induction us generalizing s with
  | nil =>
    refine ⟨OnlyChanges.refl _ s, ?_, fun v hv => absurd hv (by simp), fun _ _ => rfl⟩
    rw [pollExcused_untouched (by simp)]
    rfl
  | cons u us ih =>
    have hfirst := excusedAll_excuseUnit (h u (by simp))
    exact excusedAll_cons hfirst (ih fun v hv => hfirst.excusable (h v (by simp [hv])))

/-! ## OUTAGE.DECLARE -/

theorem atOrBelow_popLine (l : Lane) (s : State) (u v : Nat) : (popLine l s).atOrBelow u v = s.atOrBelow u v :=
  atOrBelow_of_parents (t := popLine l s) (fun _ => rfl) u v

/-- What a declaration's record leaves: its number, the log, and PPL's excuses (R109, R125). -/
theorem excuseBelow_spec {u : Nat} {s : State}
    (hopen : ∃ o ∈ s.olz.log, o.state = .opened ∧ o.kind = .declared ∧ o.root = u) :
    ∃ us, (∀ v, v ∈ us ↔ Excuses s u v) ∧ ExcusedAll us s (excuseBelow u s) := by
  refine ⟨_, fun v => ?_, excusedAll_foldl fun v hv => ?_⟩
  · simp only [List.mem_filter, Bool.and_eq_true, PlantUnit.defined, bne_iff_ne, Excuses, and_assoc]
    exact ⟨fun ⟨_, h⟩ => h, fun h => ⟨mem_unitKeys_of_kind h.1, h⟩⟩
  · simp only [List.mem_filter, Bool.and_eq_true, PlantUnit.defined, bne_iff_ne, and_assoc] at hv
    obtain ⟨-, hkind, hservice, hbelow⟩ := hv
    obtain ⟨o, ho, hstate, hdecl, rfl⟩ := hopen
    exact ⟨hkind, hservice, underDeclared_iff.mpr ⟨o, ho, hstate, hdecl, hbelow⟩⟩

theorem outageDeclareEffect_eq (u : Nat) (credit : Bool) (s : State) : outageDeclareEffect u credit s =
    (excuseBelow u (openRecord .declared credit u s.tmb.run s.stamp s).1,
      (openRecord .declared credit u s.tmb.run s.stamp s).2) := rfl

theorem outageDeclareVerb_of_unread {args : List Text} {s : State} (hs : s.saving = false)
    (ha : two (argNum 0 511) argFlag args = none) : outageDeclareVerb args s = refuse .args s := by
  rcases args with _ | ⟨a, _ | ⟨b, _ | ⟨c, rest⟩⟩⟩
  · simp [outageDeclareVerb, hs]
  · simp [outageDeclareVerb, hs]
  · cases hu : argUnit a with
    | none => simp [outageDeclareVerb, hs, hu]
    | some u =>
      have hu' : argNum 0 511 a = some u := hu
      have hon : argFlag b = none := by simpa [two, hu'] using ha
      simp [outageDeclareVerb, hs, hu, hon]
  · simp [outageDeclareVerb, hs]

theorem outageDeclareVerb_of_args {args : List Text} {s : State} {u : Nat} {credit : Bool} (hs : s.saving = false)
    (ha : two (argNum 0 511) argFlag args = some (u, credit)) : outageDeclareVerb args s =
      if !hasTransponder (s.unit u).cfg.kind then refuse .args s
      else if declareOverlaps s u then refuse .overlap s
      else if !s.hasRoom then refuse .full s
      else ((outageDeclareEffect u credit s).1, .ok [fNum (outageDeclareEffect u credit s).2]) := by
  obtain ⟨a, b, rfl, hau, hcredit⟩ := two_eq_some.mp ha
  have hu : argUnit a = some u := hau
  simp [outageDeclareVerb, hs, hu, hcredit]

theorem declareOverlaps_iff {s : State} {u : Nat} : declareOverlaps s u = true ↔
    ∃ o ∈ s.olz.log, o.state = .opened
      ∧ (s.atOrBelow o.root u = true ∨ (o.kind = .declared ∧ s.atOrBelow u o.root = true)) := by
  simp [declareOverlaps]

theorem noRoom_iff {s : State} : (!s.hasRoom) = true ↔ 64 ≤ s.olz.log.length ∧ s.olz.closedOrder = [] := by
  rw [Bool.not_eq_true', ← Bool.not_eq_true, hasRoom_iff, LogHasRoom]
  simp

/-- The declared outage, from any state: OLZ's record and PPL's excuses (R109, R120, R125). -/
theorem outageDeclareEffect_spec (u : Nat) (credit : Bool) (s : State) :
    let t := (outageDeclareEffect u credit s).1
    let n := (outageDeclareEffect u credit s).2
    FirstFree s n ∧ OnlyChanges [.olz, .attn, .ppl] s t ∧ Raised [.outage] s t
      ∧ t.olz = recordOpened n .declared credit u s.tmb.run (if s.tmb.timeSet then some s.tmb.station else none) s
      ∧ ∃ us, (∀ v, v ∈ us ↔ Excuses s u v) ∧ t.ppl = { pollExcused us s with units := t.ppl.units }
        ∧ (∀ v, v ∈ us → ¬UnderOpenPoll s v → t.unit v = (s.unit v).settledTo .excused)
        ∧ ∀ v, v ∉ us ∨ UnderOpenPoll s v → t.unit v = s.unit v := by
  obtain ⟨hfree, holz, hraised⟩ := openRecord_spec .declared credit u s.tmb.run s.stamp s
  have hopened := openRecord_only .declared credit u s.tmb.run s.stamp s
  rw [outageDeclareEffect_eq]
  generalize openRecord .declared credit u s.tmb.run s.stamp s = x at *
  obtain ⟨us, hus, honly, hpoll, hexcused, hkept⟩ := excuseBelow_spec (u := u) (s := x.1)
    ⟨_, by rw [holz]; exact List.mem_append_right _ (List.mem_singleton_self _), rfl, rfl, rfl⟩
  have hppl : x.1.ppl = s.ppl := hopened .ppl (by simp)
  have hsst : x.1.sst = s.sst := hopened .sst (by simp)
  have hunit : x.1.unit = s.unit := funext fun v => by simp only [State.unit, hppl]
  have hexcuses : ∀ v, Excuses x.1 u v ↔ Excuses s u v := fun v => by
    simp only [Excuses, hunit, atOrBelow_of_parents (s := s) (t := x.1) fun v => by rw [hunit]]
  have hunder : ∀ v, UnderOpenPoll x.1 v ↔ UnderOpenPoll s v := fun v => by simp only [UnderOpenPoll, hppl]
  have hpollSame : pollExcused us x.1 = pollExcused us s := by simp only [pollExcused, pollEnded, hppl, hsst]
  refine ⟨hfree, (hopened.mono (by simp)).trans (honly.mono (by simp)), fun k => ?_, Eq.trans (honly .olz (by simp)) holz,
    us, fun v => (hus v).trans (hexcuses v), hpollSame ▸ hpoll, fun v hv hno => ?_, fun v hv => ?_⟩
  · exact (attn_congr (honly .attn (by simp)) k).trans (hraised k)
  · rw [hexcused v hv (mt (hunder v).mp hno), hunit]
  · rw [hkept v (hv.imp_right (hunder v).mpr), hunit]

/-! ## OUTAGE.END -/

theorem outageEndVerb_of_unread {args : List Text} {s : State} (hs : s.saving = false)
    (ha : one (fun a => (argNum 1 65535 a).bind s.record) args = none) : outageEndVerb args s = refuse .args s := by
  rcases args with _ | ⟨a, _ | ⟨b, rest⟩⟩
  · simp [outageEndVerb, hs]
  · have hnone : (argOutage a).bind s.record = none := ha
    simp [outageEndVerb, hs, hnone]
  · simp [outageEndVerb, hs]

theorem outageEndVerb_of_args {args : List Text} {s : State} {o : Outage} (hs : s.saving = false)
    (ha : one (fun a => (argNum 1 65535 a).bind s.record) args = some o) : outageEndVerb args s =
      if o.kind ≠ .declared then refuse .args s
      else if o.state ≠ .opened then refuse .state s
      else accept (outageEndEffect o s) := by
  obtain ⟨a, rfl, hread⟩ := one_eq_some.mp ha
  have hsome : (argOutage a).bind s.record = some o := hread
  simp only [outageEndVerb, hs, hsome, Bool.false_eq_true, if_false]

theorem unit_returnBelow (r v : Nat) (s : State) : (returnBelow r s).unit v =
    if (s.unit v).state = .excused ∧ s.atOrBelow v r = true ∧ ¬s.underDeclared v = true then
      (s.unit v).settledTo .unknown else s.unit v := by
  refine (unit_foldl (g := PlantUnit.settledTo .unknown) (fun t u v => ?_) (fun _ => rfl) _ s v).trans ?_
  · rw [unit_setUnit]
    split
    · next hv => rw [hv]
    · rfl
  · have hkeys : (s.unit v).state = .excused → v ∈ s.unitKeys := fun he => mem_unitKeys fun hb => by
      simp [hb, PlantUnit.blank] at he
    refine if_congr ?_ rfl rfl
    simp only [List.mem_filter, Bool.and_eq_true, beq_iff_eq, Bool.not_eq_true', Bool.not_eq_true, and_assoc]
    exact ⟨fun ⟨_, h⟩ => h, fun h => ⟨hkeys h.1, h⟩⟩

theorem returnBelow_unitsOnly (r : Nat) (s : State) : UnitsOnly s (returnBelow r s) :=
  unitsOnly_foldl (f := fun s u => s.setUnit u ((s.unit u).settledTo .unknown)) (fun _ _ => rfl) _ s

theorem returnBelow_only (r : Nat) (s : State) : OnlyChanges [.ppl] s (returnBelow r s) :=
  OnlyChanges.foldl _ (fun t u => setUnit_only u _ t) _ s

/-- Once record `n` has ended, the other OPEN DECLARED records still cover their units (R109). -/
theorem underDeclared_clearRecord {n v : Nat} {s : State} :
    (clearRecord n .ended [] false s).underDeclared v = true ↔
      ∃ x ∈ s.olz.log, x.number ≠ n ∧ x.state = .opened ∧ x.kind = .declared ∧ s.atOrBelow v x.root = true := by
  have hlog : (clearRecord n .ended [] false s).olz.log =
      s.olz.log.map fun o => if o.number = n then o.endedAs .ended [] false s else o := rfl
  have hbelow := atOrBelow_of_parents (s := s) (t := clearRecord n .ended [] false s) fun _ => rfl
  rw [underDeclared_iff, hlog]
  simp only [List.mem_map, exists_exists_and_eq_and, hbelow]
  refine exists_congr fun x => and_congr_right fun _ => ?_
  by_cases hx : x.number = n <;> simp [hx, Outage.endedAs]

/-- Settles O37: the checks of each verb, the declaration by `outageDeclareEffect_spec`, the end by
`unit_returnBelow`. -/
theorem outageDeclareAndEnd : Obligations.OutageDeclareAndEnd := by
  refine ⟨fun l tag args s h => ?_, fun l tag args s h => ?_⟩
  · refine parsed_of_act rfl h (fun hs => by simp [outageDeclareVerb, hs]) outageDeclareVerb_of_unread
      fun (u, credit) hs ha => checked_of_ite rfl h (outageDeclareVerb_of_args hs ha) (by simp; rfl) fun hverb =>
        checked_of_ite rfl h hverb (declareOverlaps_iff.trans (by simp only [atOrBelow_popLine]; rfl)) fun hverb =>
          checked_of_ite rfl h hverb noRoom_iff fun hacc => ?_
    obtain ⟨hfree, honly, hraised, holz, us, hus, hppl, hexcused, hkept⟩ :=
      outageDeclareEffect_spec u credit (popLine l s)
    have hus' : ∀ v, v ∈ us ↔ Excuses s u v := fun v => (hus v).trans (by
      simp only [Excuses, atOrBelow_popLine]; rfl)
    generalize outageDeclareEffect u credit (popLine l s) = x at *
    refine ⟨x.2, hfree, accepts_of_effect rfl h hacc honly (by simp) ⟨holz, raised_reply hraised _, fun v hv hno => ?_,
      fun v hv => ?_, fun hno => ?_, fun p hp hv ho => ?_, fun p hp hv ho => ?_⟩⟩
    · exact hexcused v ((hus' v).mpr hv) fun ⟨p, hp, hpv, ho⟩ => by simp [hno p hp hpv] at ho
    · exact hkept v (hv.imp_left (mt (hus' v).mp))
    · rw [pollExcused_untouched (s := popLine l s) fun p hp hp' => hno p hp ((hus' _).mp hp')] at hppl
      exact hppl
    · rw [pollExcused_open (s := popLine l s) hp ((hus' _).mpr hv) ho] at hppl
      exact hppl
    · rw [pollExcused_closed (s := popLine l s) hp ((hus' _).mpr hv) ho] at hppl
      exact hppl
  · refine parsed_of_act rfl h (fun hs => by simp [outageEndVerb, hs]) outageEndVerb_of_unread
      fun o hs ha => checked_of_ite rfl h (outageEndVerb_of_args hs ha) Iff.rfl fun hverb =>
        checked_of_ite rfl h hverb Iff.rfl fun hacc => ?_
    have hcleared := clearRecord_only o.number .ended [] false (popLine l s)
    have hreturned := returnBelow_only o.root (clearRecord o.number .ended [] false (popLine l s))
    refine accepts_of_effect rfl h hacc ((hcleared.mono (by simp)).trans (hreturned.mono (by simp))) (by simp)
      ⟨Eq.trans (hreturned .olz (by simp)) rfl, raised_reply (l := l) (fun k => ?_) _, returnBelow_unitsOnly _ _, fun v => ?_⟩
    · exact (attn_congr (hreturned .attn (by simp)) k).trans (clearRecord_raised _ _ _ _ _ k)
    · refine (unit_returnBelow o.root v _).trans (if_congr ?_ rfl rfl)
      rw [underDeclared_clearRecord, atOrBelow_of_parents (s := s) fun _ => rfl]
      simp only [atOrBelow_popLine]
      rfl

end Sys2Proof.Proofs

/-! PROOFS. JOURNAL.RELEASE and PERIOD.CLOSE (O39), the drain (O40), the parameters and the intake mode (O42), RUN and
STOP (O43). -/

namespace Sys2Proof.Proofs

open Sys2Proof Sys2Proof.Machine Sys2Proof.Laws

/-! ## JOURNAL.RELEASE (R146) -/

theorem heldIndex_of_first {s : State} {o : JRec} (h : s.bjn.held.head? = some o) (n : Word) : heldIndex s n =
    if (n - o.seq).toNat < s.bjn.held.length then some (n - o.seq).toNat else none := by
  rw [heldIndex, h, Option.bind_some]

theorem heldIndex_eq_none {s : State} {n : Word}
    (h : ∀ o, s.bjn.held.head? = some o → s.bjn.held.length ≤ (n - o.seq).toNat) : heldIndex s n = none := by
  cases hfirst : s.bjn.held.head? with
  | none => rw [heldIndex, hfirst, Option.bind_none]
  | some o => rw [heldIndex_of_first hfirst, if_neg (Nat.not_lt.mpr (h o hfirst))]

theorem journalReleaseVerb_of_unread {args : List Text} {s : State} (hs : s.saving = false)
    (ha : one argWord args = none) : journalReleaseVerb args s = refuse .args s := by
  rcases args with _ | ⟨a, _ | ⟨b, rest⟩⟩
  · simp [journalReleaseVerb, hs]
  · have hnone : argWord a = none := ha
    simp [journalReleaseVerb, hs, hnone]
  · simp [journalReleaseVerb, hs]

theorem journalReleaseVerb_of_args {args : List Text} {s : State} {n : Word} (hs : s.saving = false)
    (ha : one argWord args = some n) : journalReleaseVerb args s = (heldIndex s n).elim (refuse .range s)
      fun i => (releaseRecords (i + 1) s, .ok [fNum (4096 - (s.bjn.held.length - (i + 1)))]) := by
  obtain ⟨a, rfl, hread⟩ := one_eq_some.mp ha
  cases hi : heldIndex s n <;> simp [journalReleaseVerb, hs, hread, hi, State.free, releaseRecords]

theorem releaseRecords_only (n : Nat) (s : State) : OnlyChanges [.bjn] s (releaseRecords n s) := only_bjn _ s

/-! ## PERIOD.CLOSE (R148) -/

theorem free_eq_zero_iff {s : State} : s.free = 0 ↔ 4096 ≤ s.bjn.held.length := Nat.sub_eq_zero_iff_le

theorem periodCloseVerb_of_unread {args : List Text} {s : State} (hs : s.saving = false) (ha : noArgs args = none) :
    periodCloseVerb args s = refuse .args s := by
  cases args with
  | nil => cases ha
  | cons a rest => simp [periodCloseVerb, hs]

theorem periodCloseVerb_of_args {args : List Text} {s : State} (hs : s.saving = false) (ha : noArgs args = some ()) :
    periodCloseVerb args s = if s.free = 0 then refuse .journal s
      else (periodCloseEffect s, .ok [fTime s.bjn.nextSeq, fNum (nextPeriod s.bjn.period)]) := by
  cases args with
  | nil =>
    have hperiod : (periodCloseEffect s).bjn.period = nextPeriod s.bjn.period := by
      simp [periodCloseEffect, appendRecord]
    simp [periodCloseVerb, hs, hperiod]
  | cons a rest => cases ha

theorem periodCloseEffect_only (s : State) : OnlyChanges [.bjn, .attn] s (periodCloseEffect s) :=
  (writeRecord_only _ s).trans ((only_bjn _ _).mono (by simp))

/-- Records written stand when PERIOD.CLOSE or the drain has then changed the journal's other fields, as those fields
were. -/
theorem wrote_of_bjn {bs : List JBody} {s t u : State} (h : Wrote bs s t) (hattn : u.ofp.attn = t.ofp.attn)
    (hbjn : u.bjn = t.bjn) : Wrote bs s u := by
  obtain ⟨hheld, hother, hjournal, hjfull⟩ := h
  refine ⟨hbjn.trans hheld, fun k h1 h2 => (attn_congr hattn k).trans (hother k h1 h2), ?_, ?_⟩
  · rw [attn_congr hattn, hbjn, hjournal]
  · rw [attn_congr hattn, hbjn, hjfull]

/-- Settles O39: the release by `heldIndex`, the close by the record it writes. -/
theorem journalReleaseAndPeriodClose : Obligations.JournalReleaseAndPeriodClose := by
  refine ⟨fun l tag args s h => ?_, fun l tag args s h => ?_⟩
  · refine parsed_of_act rfl h (fun hs => by simp [journalReleaseVerb, hs]) journalReleaseVerb_of_unread
      fun n hs ha => ⟨fun hno => ?_, fun o i ho hi hlt => ?_⟩
    · have hnone : heldIndex (popLine l s) n = none := heldIndex_eq_none hno
      exact refuses_of_effect rfl h (by rw [journalReleaseVerb_of_args hs ha, hnone]; rfl)
    · have hsome : heldIndex (popLine l s) n = some i := by
        subst hi
        exact (heldIndex_of_first ho n).trans (if_pos hlt)
      refine accepts_of_effect (u := releaseRecords (i + 1) (popLine l s)) rfl h ?_ (releaseRecords_only _ _) (by simp)
        rfl
      rw [journalReleaseVerb_of_args hs ha, hsome]
      rfl
  · refine parsed_of_act rfl h (fun hs => by simp [periodCloseVerb, hs]) periodCloseVerb_of_unread
      fun _ hs ha => checked_of_ite rfl h (periodCloseVerb_of_args hs ha) free_eq_zero_iff fun hacc => ?_
    have hbjn := writeRecord_bjn (.period s.bjn.period) (popLine l s)
    have hwrote := wrote_reply (writeRecord_wrote (.period s.bjn.period) (popLine l s))
    refine accepts_of_effect rfl h hacc (periodCloseEffect_only _) (by simp) ⟨?_, wrote_of_bjn (hwrote _) rfl ?_⟩
    · exact Eq.trans (congrArg (fun b : Bjn => nextPeriod b.period) hbjn) rfl
    · exact (congrArg (fun b : Bjn => { b with period := s.bjn.period }) hbjn).trans hbjn.symm

/-! ## The drain (R149, R150) -/

theorem advances_iff {s : State} : s.passesAdvance = true ↔ Advances s := by
  simp [State.passesAdvance, Advances, or_assoc]

theorem canDrain_of_left {s : State} {n : Nat} (h : s.bjn.drainLeft = some (n + 1)) (ha : Advances s) :
    s.canDrain = true := by simp [State.canDrain, h, advances_iff.mpr ha]

section Drain

variable {s : State} {n : Nat} (hleft : s.bjn.drainLeft = some (n + 1)) (hadvance : Advances s)

include hleft hadvance

theorem exec_drainVisit : exec .drainVisit s = done (drainVisit s) := if_pos (canDrain_of_left hleft hadvance)

theorem happens_drainVisit_full (hfull : 4096 ≤ s.bjn.held.length) :
    Happens .drainVisit s [.bjn] fun t => t.bjn = { s.bjn with drainLeft := none } := by
  have hvisit : drainVisit s = s.setDrainLeft none := if_pos (free_eq_zero_iff.mpr hfull)
  exact happens_done ((exec_drainVisit hleft hadvance).trans (by rw [hvisit])) (setDrainLeft_only none s) rfl

theorem happens_drainVisit_empty (hroom : s.bjn.held.length < 4096)
    (hpending : (s.drop s.bjn.drainCursor).pending = 0) : Happens .drainVisit s [.bjn] fun t => t.bjn = { s.bjn with
      drainCursor := if 2047 ≤ s.bjn.drainCursor then 0 else s.bjn.drainCursor + 1, drainLeft := some n } := by
  have hvisit : drainVisit s = advanceDrain (drainDrop s.bjn.drainCursor s) :=
    if_neg (mt free_eq_zero_iff.mp (Nat.not_le.mpr hroom))
  have hdrop : drainDrop s.bjn.drainCursor s = s := if_pos hpending
  rw [hdrop] at hvisit
  refine happens_done (t := advanceDrain s) ((exec_drainVisit hleft hadvance).trans (by rw [hvisit])) (only_bjn _ s) ?_
  change (advanceDrain s).bjn = _
  simp [advanceDrain, hleft]

/-- The visit of a drop that holds pending credit: its deferred record, and the drop without it (R150). -/
theorem happens_drainVisit_pending (hroom : s.bjn.held.length < 4096)
    (hpending : 0 < (s.drop s.bjn.drainCursor).pending) :
    let d := s.bjn.drainCursor
    let r := s.drop d
    Happens .drainVisit s [.bjn, .dtb, .attn] fun t =>
      t.bjn = { t.bjn with drainCursor := if 2047 ≤ d then 0 else d + 1, drainLeft := some n }
        ∧ Wrote [.credit d r.account none none none r.pending true] s
            { t with bjn := { t.bjn with drainCursor := d, drainLeft := some (n + 1) } }
        ∧ OnlyDrop d s t
        ∧ t.drop d = { r with pending := 0, account := if r.service = .vacant then none else r.account } := by
  intro d r
  let b : JBody := .credit d r.account none none none r.pending true
  let u := (writeRecord b s).setDrop d { r with
    pending := 0, account := if r.service = .vacant then none else r.account }
  have hvisit : drainVisit s = advanceDrain u :=
    (if_neg (mt free_eq_zero_iff.mp (Nat.not_le.mpr hroom))).trans
      (congrArg advanceDrain (if_neg (Nat.pos_iff_ne_zero.mp hpending)))
  have honly : OnlyChanges [.bjn, .dtb, .attn] s (advanceDrain u) :=
    (((writeRecord_only b s).mono (by simp)).trans ((setDrop_only d _ _).mono (by simp))).trans
      ((only_bjn _ u).mono (by simp))
  have hbjn : u.bjn = (appendRecord b s).bjn := writeRecord_bjn b s
  have hcursor : u.bjn.drainCursor = d := Eq.trans (congrArg Bjn.drainCursor hbjn) rfl
  have hnow : u.bjn.drainLeft = some (n + 1) := Eq.trans (congrArg Bjn.drainLeft hbjn) hleft
  refine happens_done ((exec_drainVisit hleft hadvance).trans (by rw [hvisit])) honly
    ⟨?_, wrote_of_bjn (writeRecord_wrote b s) rfl ?_, ?_, (drop_setDrop ..).trans (if_pos rfl)⟩
  · change (advanceDrain u).bjn = { (advanceDrain u).bjn with
      drainCursor := if 2047 ≤ d then 0 else d + 1, drainLeft := some n }
    simp [advanceDrain, hcursor, hnow]
  · change { u.bjn with drainCursor := d, drainLeft := some (n + 1) } = u.bjn
    rw [← hcursor, ← hnow]
  · exact onlyDrop_trans (onlyDrop_of_dtb (writeRecord_dtb b s)) (onlyDrop_of_setDrop d _ _)

end Drain

/-- Settles O40: a visit by whether the journal is full and the drop holds credit, and the circuit's end. -/
theorem drainWritesPendingCredit : Obligations.DrainWritesPendingCredit := by
  refine ⟨fun s n hleft hadvance => ⟨happens_drainVisit_full hleft hadvance, happens_drainVisit_empty hleft hadvance,
    happens_drainVisit_pending hleft hadvance⟩, fun s hdone => ?_⟩
  have hexec : exec .drainCircuitEnd s = done (s.setDrainLeft none) := if_pos hdone
  exact happens_done hexec (setDrainLeft_only none s) rfl

/-! ## Parameters and the intake mode (R101, R174) -/

theorem value_write_same (p : Param) (v : Nat) (ps : Params) : p.value (p.write v ps) = v := by cases p <;> rfl

theorem value_write_other {p q : Param} (h : q ≠ p) (v : Nat) (ps : Params) : q.value (p.write v ps) = q.value ps := by
  cases p <;> cases q <;> simp [Param.value, Param.write] at h ⊢

theorem paramSetEffect_only (p : Param) (v : Nat) (s : State) :
    OnlyChanges [.params, .rsw, .ppl] s (paramSetEffect p v s) := by
  have hparams : OnlyChanges [.params, .rsw, .ppl] s { s with params := p.write v s.params } :=
    (only_params _ s).mono (by simp)
  exact hparams.trans (((only_rsw _ _).mono (by simp)).ite (((only_ppl _ _).mono (by simp)).ite (OnlyChanges.refl _ _)))

/-- What PARAM.SET leaves of the parameters and of the counters (R89, R110, R174). -/
theorem paramSetEffect_spec (p : Param) (v : Nat) (s : State) :
    (paramSetEffect p v s).params = p.write v s.params
      ∧ (paramSetEffect p v s).rsw = (if p = .refreshStep then { s.rsw with counter := 0 } else s.rsw)
      ∧ (paramSetEffect p v s).ppl = if p = .pollCycle then { s.ppl with timer := 0 } else s.ppl := by
  cases p <;> exact ⟨rfl, rfl, rfl⟩

theorem paramSetVerb_of_args {args : List Text} {s : State} {p : Param} {v : Nat} (hs : s.saving = false)
    (ha : argsParamSet args = some (p, v)) :
    paramSetVerb args s = (paramSetEffect p v s, .ok [fParam p, fNum v]) := by simp [paramSetVerb, hs, ha]

theorem argWordOf_eq_none {α : Type} {table : List (String × α)} {a : Text} :
    argWordOf table a = none ↔ ∀ e ∈ table, a ≠ ascii e.1 := by
  simp [argWordOf, List.find?_eq_none, @eq_comm _ a]

/-- The parameters' words tell them apart, and each names its own. -/
theorem paramWords_read : ∀ e ∈ paramWords, argWordOf paramWords (ascii e.1) = some e.2 ∧ ascii e.1 ≠ ascii "ALL"
    ∧ fParam e.2 = fWord e.1 := by decide

theorem paramReadVerb_all (s : State) : paramReadVerb [ascii "ALL"] s =
    .ok ((paramWords.map fun e => [fWord e.1, fNum (e.2.value s.params)]).flatten) := by
  have hfields : (paramWords.map fun e => paramFields s e.2) =
      paramWords.map fun e => [fWord e.1, fNum (e.2.value s.params)] :=
    List.map_congr_left fun e he => by
      obtain ⟨-, -, hname⟩ := paramWords_read e he
      rw [paramFields, hname]
  simp [paramReadVerb, hfields]

theorem paramReadVerb_named {e : String × Param} (he : e ∈ paramWords) (s : State) :
    paramReadVerb [ascii e.1] s = .ok [fWord e.1, fNum (e.2.value s.params)] := by
  obtain ⟨hread, hall, hname⟩ := paramWords_read e he
  simp [paramReadVerb, hread, hall, paramFields, hname]

theorem intakeModeVerb_of_unread {args : List Text} {s : State} (hs : s.saving = false)
    (ha : one (argWordOf intakeWords) args = none) : intakeModeVerb args s = refuse .args s := by
  rcases args with _ | ⟨a, _ | ⟨b, rest⟩⟩
  · simp [intakeModeVerb, hs]
  · have hnone : argWordOf intakeWords a = none := ha
    simp [intakeModeVerb, hs, hnone]
  · simp [intakeModeVerb, hs]

/-- Settles O42: PARAM.SET by `paramSetEffect_spec`, PARAM.READ by the words, INTAKE.MODE by its store. -/
theorem parameterAndModeVerbs : Obligations.ParameterAndModeVerbs := by
  refine ⟨fun l tag args s h => ?_, fun l tag a s h => ⟨?_, ?_, fun hall hno => ?_⟩, fun l tag args s h => ?_⟩
  · refine parsed_of_act rfl h (fun hs => by simp [paramSetVerb, hs]) (fun hs ha => by simp [paramSetVerb, hs, ha])
      fun (p, v) hs ha => ?_
    obtain ⟨hparams, hrsw, hppl⟩ := paramSetEffect_spec p v (popLine l s)
    have honly := paramSetEffect_only p v (popLine l s)
    have hacc := paramSetVerb_of_args hs ha
    generalize paramSetEffect p v (popLine l s) = u at *
    refine accepts_of_effect rfl h hacc honly (by simp) ⟨hparams, ?_, fun q hq => ?_, hrsw, hppl⟩
    · exact (congrArg p.value hparams).trans (value_write_same p v _)
    · exact (congrArg q.value hparams).trans (value_write_other hq v _)
  · rintro rfl
    exact answers_of_read rfl h (paramReadVerb_all _)
  · rintro e he rfl
    exact answers_of_read rfl h (paramReadVerb_named he _)
  · refine answers_of_read rfl h ?_
    simp [paramReadVerb, hall, argWordOf_eq_none.mpr hno]
  · refine parsed_of_act rfl h (fun hs => by simp [intakeModeVerb, hs]) intakeModeVerb_of_unread fun m hs ha => ?_
    obtain ⟨a, rfl, hread⟩ := one_eq_some.mp ha
    refine accepts_of_effect (u := { popLine l s with pin := { (popLine l s).pin with mode := m } }) rfl h ?_
      (only_pin _ _) (by simp) rfl
    simp [intakeModeVerb, hs, hread, accept]

/-! ## RUN and STOP (R53, R117, R176) -/

theorem runVerb_eq (args : List Text) (s : State) : runVerb args s =
    if args ≠ [] then refuse .args s
    else if s.sst.runState ≠ .standby then refuse .state s
    else if !s.tmb.timeSet then refuse .time s
    else accept (enterRun s) := by
  cases args <;> simp [runVerb]

theorem stopVerb_eq (args : List Text) (s : State) : stopVerb args s =
    if args ≠ [] then refuse .args s
    else if s.sst.runState ≠ .run then refuse .state s
    else accept (enterStopping s) := by
  cases args <;> simp [stopVerb]

theorem enterRun_only (s : State) : OnlyChanges [.sst, .ppl] s (enterRun s) :=
  ((setRunState_only .run s).mono (by simp)).trans ((only_ppl _ _).mono (by simp))

section Stop

variable {s : State}

theorem stoppingEnd_only (s : State) : OnlyChanges [.sst] s (stoppingEnd s) :=
  (setRunState_only .standby s).ite (OnlyChanges.refl _ s)

/-- A part in STOPPING with no window open goes on to STANDBY (R53). -/
theorem stoppingEnd_sst (s : State) (x : Sst) (h : s.sst = { x with runState := .stopping }) : (stoppingEnd s).sst =
    { x with runState := if s.csc.windows = [] then .standby else .stopping } := by
  have hrun : s.sst.runState = .stopping := by rw [h]
  unfold stoppingEnd
  split_ifs with hc hw hw
  · rw [State.setRunState, h]
  · exact absurd hc.2 hw
  · exact absurd ⟨hrun, hw⟩ hc
  · exact h

/-- The state as the cycle stops (R117): STOPPING, no held expiry. -/
def cycleStopping (s : State) : State :=
  let u := s.setRunState .stopping
  { u with ppl := { u.ppl with heldExpiry := false } }

theorem cycleStopping_only (s : State) : OnlyChanges [.sst, .ppl] s (cycleStopping s) :=
  ((setRunState_only .stopping s).mono (by simp)).trans ((only_ppl _ _).mono (by simp))

/-- PPL without its cycle (R117). -/
def pollIdle (s : State) : Ppl := { s.ppl with heldExpiry := false, running := false, cursor := 0, poll := none }

theorem stopCycle_idle (h : s.ppl.poll = none) :
    stopCycle (s.setRunState .stopping) = { s.setRunState .stopping with ppl := pollIdle s } := by
  simp [stopCycle, State.setRunState, h, pollIdle]

theorem stopCycle_open {p : Poll} (hp : s.ppl.poll = some p) (ho : p.windowOpen = true) :
    stopCycle (s.setRunState .stopping) = cycleStopping s := by
  simp [stopCycle, State.setRunState, hp, ho, cycleStopping]

theorem removePoll_cycleStopping (s : State) : (removePoll (cycleStopping s)).ppl = pollIdle s := rfl

theorem stopCycle_ends {p : Poll} (hp : s.ppl.poll = some p) (ho : p.windowOpen = false) :
    stopCycle (s.setRunState .stopping) = endPoll p (cycleStopping s) := by
  simp [stopCycle, State.setRunState, hp, ho, cycleStopping]

end Stop

theorem windows_of_csc {s t : State} (h : Agree .csc s t) : t.csc.windows = s.csc.windows := by
  have hcsc : { t.csc with marks := s.csc.marks } = s.csc := h
  exact (congrArg Csc.windows hcsc :)

/-- STOP, by what the end of the cycle leaves (R117, R176). -/
theorem accepts_stop {l : Lane} {tag : Byte} {args : List Text} {s u : State} {ps : List Part} {q : State → Prop}
    (h : Takes .stop l tag args s) (hacc : stopVerb args (popLine l s) = accept (enterStopping (popLine l s)))
    (hu : stopCycle ((popLine l s).setRunState .stopping) = u) (honly : OnlyChanges (.sst :: ps) (popLine l s) u)
    (hps : .office ∉ ps) (hsst : u.sst = { s.sst with runState := .stopping }) (hwindows : u.csc.windows = s.csc.windows)
    (hq : ∀ t, OnlyChanges [.office, .marks, .sst] u t → q t) :
    Accepts (.stop l) l tag (.ok []) s (.sst :: ps) fun t =>
      t.sst = { s.sst with runState := if s.csc.windows = [] then .standby else .stopping } ∧ q t := by
  have heffect : enterStopping (popLine l s) = stoppingEnd u := congrArg stoppingEnd hu
  have hend := stoppingEnd_sst u s.sst hsst
  rw [hwindows] at hend
  rw [heffect] at hacc
  exact accepts_of_effect rfl h hacc (honly.trans ((stoppingEnd_only u).mono (by simp))) (by simpa using hps)
    ⟨hend, hq _ (((stoppingEnd_only u).mono (by simp)).trans ((reply_only _ _).mono (by simp)))⟩

/-- Settles O43: RUN by `enterRun`, STOP by what becomes of the poll in progress. -/
theorem runAndStop : Obligations.RunAndStop := by
  refine ⟨fun l tag args s h => ?_, fun l tag args s h => ?_⟩
  · refine checked_of_ite rfl h (runVerb_eq args _) Iff.rfl fun hverb => checked_of_ite rfl h hverb Iff.rfl fun hverb =>
      checked_of_ite rfl h hverb (by simp) fun hacc => ?_
    exact accepts_of_effect rfl h hacc (enterRun_only _) (by simp) ⟨rfl, rfl⟩
  · refine checked_of_ite rfl h (stopVerb_eq args _) Iff.rfl fun hverb => checked_of_ite rfl h hverb Iff.rfl
      fun hacc => ⟨fun hno => ?_, fun p hp ho => ?_, fun p hp ho hheld => ?_⟩
    · cases hp : s.ppl.poll with
      | none =>
        refine accepts_stop (ps := [.ppl]) h hacc (stopCycle_idle (s := popLine l s) hp)
          (((setRunState_only _ _).mono (by simp)).trans ((only_ppl _ _).mono (by simp))) (by simp) rfl rfl fun t ht => ?_
        exact ht .ppl (by simp)
      | some p =>
        obtain ⟨ho, hheld⟩ := hno p hp
        have hends : stopCycle ((popLine l s).setRunState .stopping) = removePoll (cycleStopping (popLine l s)) :=
          (stopCycle_ends (s := popLine l s) hp ho).trans (endPoll_unheld hheld _)
        refine accepts_stop (ps := [.ppl]) h hacc hends
          ((cycleStopping_only _).trans ((removePoll_only _).mono (by simp))) (by simp) rfl rfl fun t ht => ?_
        exact Eq.trans (ht .ppl (by simp)) (removePoll_cycleStopping _)
    · refine accepts_stop (ps := [.ppl]) h hacc (stopCycle_open hp ho) (cycleStopping_only _) (by simp) rfl rfl
        fun t ht => ht .ppl (by simp)
    · have hends : stopCycle ((popLine l s).setRunState .stopping) =
          applyHeld p.unit (removePoll (cycleStopping (popLine l s))) :=
        (stopCycle_ends (s := popLine l s) hp ho).trans (endPoll_held hheld _)
      have hcycle := cycleStopping_only (popLine l s)
      have hremoved := removePoll_only (cycleStopping (popLine l s))
      have happlied := applyHeld_only p.unit (removePoll (cycleStopping (popLine l s)))
      refine accepts_stop (ps := [.ppl, .olz, .attn]) h hacc hends
        ((hcycle.mono (by simp)).trans ((hremoved.mono (by simp)).trans (happlied.mono (by simp)))) (by simp)
        (Eq.trans (happlied .sst (by simp)) (hremoved .sst (by simp))) ?_ fun t ht =>
          ⟨removePoll (cycleStopping (popLine l s)), ?_, removePoll_cycleStopping _, ht⟩
      · have hcsc : Agree .csc (popLine l s) _ := Agree.trans (hcycle .csc (by simp))
          (Agree.trans (hremoved .csc (by simp)) (happlied .csc (by simp)))
        exact windows_of_csc hcsc
      · exact ((popLine_only l s).mono (by simp)).trans ((hcycle.mono (by simp)).trans (hremoved.mono (by simp)))

end Sys2Proof.Proofs

/-! PROOFS. The warm reset (O46) fails where the event table is not in its canonical form, which its statement does not
assume: marking what had ENDED writes each event again, and the writes put the entries of two events SHOWING on one slot
in another order. -/

namespace Sys2Proof.Proofs

open Sys2Proof Sys2Proof.Machine Sys2Proof.Laws

/-- A slot on the air and, listed in falling order, two events SHOWING on it; lane M holds RESET. -/
def twoShowing : State :=
  { State.reset.setRunState .standby with
    ofp := State.reset.ofp.setInbox .m [⟨0x37#8, ascii " RESET"⟩]
    lur :=
      { slots := [(1, { Slot.blank 1 with cfg := { SlotCfg.blank 1 with enabled := true } })]
        events := [(5, some ⟨⟨2, 1, 2, 10, 20, 90, 0, false⟩, .showing, false, false⟩),
          (3, some ⟨⟨1, 1, 1, 10, 20, 90, 0, false⟩, .showing, false, false⟩)]
        override := Override.initial } }

theorem takes_twoShowing : Takes .reset .m 0x37#8 [] twoShowing := by
  unfold Takes
  decide +kernel

/-- The warm reset before the free value of log 7, which touches the attention set alone. -/
def resetSettled (s : State) : State :=
  let s1 := clearAttention (abandonSave s)
  let s2 := resetDrops (resetPlant (resetQueue (resetCarrier (resetOutages s1))))
  let s3 := resetMatrix (resetLineUp (resetRefresh s2))
  (resetOffice (resolveAfterReset (s3.setCarousel .cycle))).setRunState .standby

theorem warmReset_eq (s : State) : warmReset s = settleAttention (resetSettled s) := rfl

/-- The reset resolves slot 1 by entry 5, and leaves a table in which entry 3 comes first. -/
theorem resetSettled_twoShowing : ((resetSettled (popLine .m twoShowing)).slot 1).resolved = 2
    ∧ (resolution (resetSettled (popLine .m twoShowing)) 1).1 = 1 := by decide +kernel

/-- Refutes O46: in `twoShowing` the reset leaves slot 1 on source 2, where its inputs give source 1. -/
theorem not_warmResetLeaves : ¬Obligations.WarmResetLeaves := by
  intro h
  obtain ⟨t, hexec, hleft⟩ := h.2 .m 0x37#8 twoShowing takes_twoShowing
  obtain ⟨-, -, -, -, -, -, -, -, -, -, -, -, -, -, -, -, -, -, -, -, -, -, -, -, -, -, -, -, hslots, -⟩ := hleft
  obtain ⟨-, -, -, -, hresolved⟩ := hslots 1
  have hsettled := settleAttention_only (resetSettled (popLine .m twoShowing))
  have ht : t = (emit (.reply .m 0x37#8 (.ok [])) (warmReset (popLine .m twoShowing))).report :=
    Host.Outcome.next.inj (hexec.symm.trans (dispatch_takes takes_twoShowing resetVerb))
  have hlur : t.lur = (resetSettled (popLine .m twoShowing)).lur := by rw [ht]; exact hsettled .lur (by simp)
  have hsmn : t.smn = (resetSettled (popLine .m twoShowing)).smn := by rw [ht]; exact hsettled .smn (by simp)
  obtain ⟨hslot, hinputs⟩ := resetSettled_twoShowing
  have hthere := resolved_congr hresolved hlur.symm hsmn.symm
  have hsame : ((resetSettled (popLine .m twoShowing)).slot 1).resolved = _ := congrArg Prod.fst hthere
  rw [hslot, hinputs] at hsame
  exact absurd hsame (by decide)

end Sys2Proof.Proofs

/-! PROOFS. Power-on and the end of a load (O49): the line-up resolved afresh, the pages built, the ALL wave begun, and
what judges the image. -/

namespace Sys2Proof.Proofs

open Sys2Proof Sys2Proof.Machine Sys2Proof.Laws

/-! ## Every slot resolved afresh (R6) -/

/-- The listed slots have their resolution stored, in turn. -/
def storeResolutions (ks : List Nat) (s : State) : State := ks.foldl (fun s k => storeResolution k s) s

theorem storeResolutions_only (ks : List Nat) (s : State) : OnlyChanges [.lur] s (storeResolutions ks s) :=
  OnlyChanges.foldl _ (fun s k => storeResolution_only k s) ks s

theorem storeResolutions_kept (ks : List Nat) (s : State) :
    (storeResolutions ks s).lur.events = s.lur.events ∧ (storeResolutions ks s).lur.override = s.lur.override := by
  induction ks generalizing s with
  | nil => exact ⟨rfl, rfl⟩
  | cons k ks ih => exact ih (storeResolution k s)

theorem resolution_storeResolution (k j : Nat) (s : State) : resolution (storeResolution k s) j = resolution s j := by
  refine resolution_congr ?_ ?_ rfl rfl rfl
  all_goals
    rw [storeResolution, slot_setSlot]
    split
    · next hj => rw [hj]
    · rfl

theorem storeResolutions_slot (ks : List Nat) (s : State) (j : Nat) :
    (storeResolutions ks s).slot j = if j ∈ ks then reresolvedSlot s j else s.slot j := by
  induction ks generalizing s with
  | nil => rfl
  | cons k ks ih =>
    have hstep : (storeResolutions (k :: ks) s).slot j = (storeResolutions ks (storeResolution k s)).slot j := rfl
    rw [hstep, ih]
    simp only [reresolvedSlot, resolution_storeResolution]
    by_cases hj : j = k
    · subst hj
      simp [storeResolution]
    · simp [storeResolution, hj]

/-- A slot that is not listed is disabled and on the slate, as its resolution says. -/
theorem reresolvedSlot_unlisted {s : State} {k : Nat} (h : k ∉ s.slotKeys) : reresolvedSlot s k = s.slot k := by
  have hblank := slot_of_not_mem_slotKeys h
  simp only [reresolvedSlot, resolution, hblank]
  rfl

section Afresh

variable (s : State)

theorem resolveAllAfresh_slot (k : Nat) : (resolveAllAfresh s).slot k = reresolvedSlot s k := by
  refine (storeResolutions_slot s.slotKeys s k).trans ?_
  split
  · rfl
  · next h => exact (reresolvedSlot_unlisted h).symm

theorem resolveAllAfresh_only : OnlyChanges [.lur, .mxp] s (resolveAllAfresh s) :=
  ((storeResolutions_only s.slotKeys s).mono (by simp)).trans ((only_mxp _ _).mono (by simp))

theorem resolveAllAfresh_mxp : (resolveAllAfresh s).mxp = { s.mxp with
    queue := ((resolveAllAfresh s).slotKeys.filter fun k => ((resolveAllAfresh s).slot k).cfg.enabled).map
      fun k => ⟨k, ((resolveAllAfresh s).slot k).resolved⟩ } := by
  have hmxp : (storeResolutions s.slotKeys s).mxp = s.mxp := storeResolutions_only s.slotKeys s .mxp (by simp)
  rw [← hmxp]
  rfl

theorem resolution_resolveAllAfresh (k : Nat) : resolution (resolveAllAfresh s) k = resolution s k := by
  obtain ⟨hevents, hoverride⟩ := storeResolutions_kept s.slotKeys s
  refine resolution_congr ?_ ?_ hevents hoverride (resolveAllAfresh_only s .smn (by simp))
  all_goals
    rw [resolveAllAfresh_slot]
    rfl

end Afresh

/-! ## Every page built (R20) -/

theorem mapPage_of_slots {s t : State} (h : ∀ k, t.slot k = s.slot k) (n : Nat) : mapPage t n = mapPage s n := by
  simp only [mapPage, mapEntry, h]

theorem eventPage_of_entries {s t : State} (h : ∀ k, pageEvent t k = pageEvent s k) (n : Nat) :
    eventPage t n = eventPage s n := by
  simp only [eventPage, h]

section Pages

variable (ps : List Nat) (s : State)

theorem rebuildMaps_held (n : Nat) : (ps.foldl (fun s p => rebuildMap p s) s).mapPageHeld n =
    if n ∈ ps then mapPage s n else s.mapPageHeld n := by
  induction ps generalizing s with
  | nil => rfl
  | cons p ps ih =>
    have hpage : mapPage (rebuildMap p s) n = mapPage s n := rfl
    rw [List.foldl_cons, ih, hpage, mapPageHeld_rebuildMap]
    by_cases hn : n = p <;> by_cases hps : n ∈ ps <;> simp [hn, hps]

theorem rebuildEvents_held (n : Nat) : (ps.foldl (fun s p => rebuildEvents p s) s).eventPageHeld n =
    if n ∈ ps then eventPage s n else s.eventPageHeld n := by
  induction ps generalizing s with
  | nil => rfl
  | cons p ps ih =>
    have hpage : eventPage (rebuildEvents p s) n = eventPage s n := rfl
    rw [List.foldl_cons, ih, hpage, eventPageHeld_rebuildEvents]
    by_cases hn : n = p <;> by_cases hps : n ∈ ps <;> simp [hn, hps]

theorem rebuildEvents_mapPages : (ps.foldl (fun s p => rebuildEvents p s) s).crs.mapPages = s.crs.mapPages := by
  induction ps generalizing s with
  | nil => rfl
  | cons p ps ih => exact ih (rebuildEvents p s)

theorem rebuildMaps_only : OnlyChanges [.crs] s (ps.foldl (fun s p => rebuildMap p s) s) :=
  OnlyChanges.foldl _ (fun s p => rebuildMap_only p s) ps s

theorem pagesOnly_rebuildMaps : PagesOnly s (ps.foldl (fun s p => rebuildMap p s) s) := by
  induction ps generalizing s with
  | nil => rfl
  | cons p ps ih => exact pagesOnly_trans (pagesOnly_rebuildMap p rfl) (ih _)

theorem pagesOnly_rebuildEventPages : PagesOnly s (ps.foldl (fun s p => rebuildEvents p s) s) := by
  induction ps generalizing s with
  | nil => rfl
  | cons p ps ih => exact pagesOnly_trans (pagesOnly_rebuildEvents p rfl) (ih _)

end Pages

theorem rebuildAll_pages (s : State) : PagesOnly s (rebuildAll s)
    ∧ (∀ n, n < 10 → (rebuildAll s).mapPageHeld n = mapPage s n)
    ∧ ∀ n, n < 4 → (rebuildAll s).eventPageHeld n = eventPage s n := by
  have hbuilt : rebuildAll s = (List.range 4).foldl (fun s p => rebuildEvents p s)
      ((List.range 10).foldl (fun s p => rebuildMap p s) s) := rfl
  have hmaps := rebuildMaps_held (List.range 10) s
  have hpages := pagesOnly_rebuildMaps (List.range 10) s
  have hlur := rebuildMaps_only (List.range 10) s .lur (by simp)
  rw [hbuilt]
  generalize (List.range 10).foldl (fun s p => rebuildMap p s) s = u at *
  refine ⟨pagesOnly_trans hpages (pagesOnly_rebuildEventPages _ u), fun n hn => ?_, fun n hn => ?_⟩
  · rw [State.mapPageHeld, rebuildEvents_mapPages]
    exact (hmaps n).trans (if_pos (List.mem_range.mpr hn))
  · rw [rebuildEvents_held, if_pos (List.mem_range.mpr hn)]
    exact eventPage_congr (congrArg Lur.events hlur) n

/-! ## The ALL wave begins (R83, R86) -/

/-- The event as the beginning of an ALL wave marks it (R83; log 22). -/
def Event.marked (e : Event) : Event := { e with endedBeforeAll := e.state == .ended }

/-- Entries written in turn, each as `g` gives it. -/
theorem event_foldl_setEvent {g : Nat → Option Event} (es : List (Nat × Event)) {f : Event → Event}
    (h : ∀ e ∈ es, g e.1 = some (f e.2)) (s : State) (k : Nat) :
    (es.foldl (fun s e => s.setEvent e.1 (some (f e.2))) s).event k =
      if k ∈ es.map Prod.fst then g k else s.event k := by
  induction es generalizing s with
  | nil => rfl
  | cons e es ih =>
    rw [List.foldl_cons, ih fun e' he' => h e' (List.mem_cons_of_mem _ he'), event_setEvent, ← h e (by simp)]
    by_cases hk : k = e.1 <;> by_cases hes : k ∈ es.map Prod.fst <;> simp [hk, hes]

section MarkEnded

variable (s : State)

theorem markEnded_event (k : Nat) : (markEnded s).event k = (s.event k).map Event.marked := by
  have hwritten := event_foldl_setEvent (f := Event.marked) (g := fun k => (s.event k).map Event.marked)
    s.eventEntries (fun e he => by rw [mem_eventEntries.mp he, Option.map_some]) s k
  refine hwritten.trans ?_
  split
  · rfl
  · next hk =>
    cases he : s.event k with
    | none => rfl
    | some e => exact absurd (List.mem_map.mpr ⟨(k, e), mem_eventEntries.mpr he, rfl⟩) hk

theorem markEnded_lur : (markEnded s).lur = { s.lur with events := (markEnded s).lur.events } := by
  unfold markEnded
  generalize s.eventEntries = es
  induction es generalizing s with
  | nil => rfl
  | cons e es ih => exact ih (s.setEvent e.1 _)

theorem markEnded_slot (k : Nat) : (markEnded s).slot k = s.slot k := by
  unfold State.slot
  rw [markEnded_lur]

theorem markEnded_pageEvent (k : Nat) : pageEvent (markEnded s) k = pageEvent s k := by
  unfold pageEvent
  rw [markEnded_event]
  cases s.event k <;> rfl

variable {s}

/-- With no event SHOWING a slot's inputs are not the events. -/
theorem showingOn_eq_none (h : ∀ j e, s.event j = some e → e.state ≠ .showing) (k : Nat) : s.showingOn k = none := by
  have hnone : s.eventEntries.find? (fun e => e.2.cfg.slot == k && e.2.state == .showing) = none := by
    rw [List.find?_eq_none]
    rintro ⟨j, e⟩ he
    simp [h j e (mem_eventEntries.mp he)]
  rw [State.showingOn, hnone, Option.map_none]

theorem resolution_of_showingOn {t : State} {k : Nat} (hslot : t.slot k = s.slot k)
    (hoverride : t.lur.override = s.lur.override) (hsmn : t.smn = s.smn) (hshowing : t.showingOn k = s.showingOn k) :
    resolution t k = resolution s k := by
  unfold resolution orSlate
  simp only [hslot, hoverride, usable_congr hsmn, hshowing]

theorem resolution_markEnded (h : ∀ j e, s.event j = some e → e.state ≠ .showing) (k : Nat) :
    resolution (markEnded s) k = resolution s k := by
  have hmarked : ∀ j e, (markEnded s).event j = some e → e.state ≠ .showing := fun j e he => by
    rw [markEnded_event, Option.map_eq_some_iff] at he
    obtain ⟨e', he', rfl⟩ := he
    exact h j e' he'
  refine resolution_of_showingOn (markEnded_slot s k) (by rw [markEnded_lur]) (markEnded_only s .smn (by simp)) ?_
  rw [showingOn_eq_none h, showingOn_eq_none hmarked]

end MarkEnded

/-- An ALL wave appended to an empty list is RUNNING at once (R82, R83; log 29). -/
theorem startHead_appendWave_all {s : State} (h : s.aen.waves = []) :
    startHead (appendWave .all s) = markEnded (s.setWaves [⟨.all, true, 0⟩]) := by
  have happended : appendedWaves .all [] = [⟨.all, false, 0⟩] := by decide
  have hwaves : (appendWave .all s).aen.waves = [⟨.all, false, 0⟩] := by
    rw [← happended, ← h]
    rfl
  unfold startHead
  rw [hwaves]
  rfl

/-! ## The entry to STANDBY (R6, R20, R86, R149) -/

/-- AEN is its queue and its waves. -/
theorem aen_of_only {ps : List Part} {s t : State} (h : OnlyChanges ps s t) (hq : .queue ∉ ps) (hw : .waves ∉ ps) :
    t.aen = s.aen := by
  have hqueue : t.aen.queue = s.aen.queue := h .queue hq
  have hwaves : { t.aen with queue := s.aen.queue } = s.aen := h .waves hw
  rwa [← hqueue] at hwaves

/-- The line-up begun afresh from `s`, none of whose events is SHOWING and whose wave list is empty. -/
structure Begun (s t : State) : Prop where
  only : OnlyChanges [.lur, .mxp, .crs, .waves] s t
  slots : ∀ k, t.slot k = reresolvedSlot s k
  resolved : ∀ k, Resolved k t
  events : ∀ k, t.event k = (s.event k).map Event.marked
  override : t.lur.override = s.lur.override
  mxp : t.mxp = { s.mxp with
    queue := (t.slotKeys.filter fun k => (t.slot k).cfg.enabled).map fun k => ⟨k, (t.slot k).resolved⟩ }
  pages : PagesOnly s t
  maps : ∀ n, n < 10 → t.mapPageHeld n = mapPage t n
  eventPages : ∀ n, n < 4 → t.eventPageHeld n = eventPage t n
  aen : t.aen = { s.aen with waves := [⟨.all, true, 0⟩] }

theorem begun_resolveAfterReset {s : State} (hshowing : ∀ j e, s.event j = some e → e.state ≠ .showing)
    (hwaves : s.aen.waves = []) : Begun s (resolveAfterReset s) := by
  have hafresh := resolveAllAfresh_only s
  have hslots := resolveAllAfresh_slot s
  have hmxp := resolveAllAfresh_mxp s
  have hinputs := resolution_resolveAllAfresh s
  obtain ⟨hevents, hoverride⟩ := storeResolutions_kept s.slotKeys s
  have hu : (resolveAllAfresh s).lur.events = s.lur.events ∧ (resolveAllAfresh s).lur.override = s.lur.override :=
    ⟨hevents, hoverride⟩
  unfold resolveAfterReset
  generalize resolveAllAfresh s = u at *
  obtain ⟨huevents, huoverride⟩ := hu
  obtain ⟨hpages, hmaps, heventPages⟩ := rebuildAll_pages u
  have hbuilt := rebuildAll_only u
  generalize rebuildAll u = v at *
  have hvlur : v.lur = u.lur := hbuilt .lur (by simp)
  have hvaen : v.aen = s.aen :=
    Eq.trans (aen_of_only hbuilt (by simp) (by simp)) (aen_of_only hafresh (by simp) (by simp))
  have hvwaves : v.aen.waves = [] := by rw [hvaen, hwaves]
  rw [startHead_appendWave_all hvwaves]
  let w := v.setWaves [⟨.all, true, 0⟩]
  have hwlur : w.lur = u.lur := hvlur
  have hwevent : w.event = s.event := event_congr ((congrArg Lur.events hwlur).trans huevents)
  have hwslot : ∀ k, w.slot k = reresolvedSlot s k := fun k => by rw [slot_congr hwlur, hslots]
  have hmarked := markEnded_only w
  have hmslot : ∀ k, (markEnded w).slot k = reresolvedSlot s k := fun k => (markEnded_slot w k).trans (hwslot k)
  have hmkeys : (markEnded w).slotKeys = u.slotKeys := by
    rw [State.slotKeys, State.slotKeys, markEnded_lur, hwlur]
  have hmresolution : ∀ k, resolution (markEnded w) k = resolution s k := fun k => by
    rw [resolution_markEnded (fun j e he => hshowing j e (by rwa [hwevent] at he)), ← hinputs]
    exact resolution_of_showingOn (by rw [slot_congr hwlur]) (by rw [hwlur]) (hbuilt .smn (by simp))
      (by rw [showingOn_congr (congrArg Lur.events hwlur)])
  change Begun s (markEnded w)
  refine ⟨?_, hmslot, fun k => ?_, fun k => ?_, ?_, ?_, ?_, fun n hn => ?_, fun n hn => ?_, ?_⟩
  · exact (((hafresh.mono (by simp)).trans (hbuilt.mono (by simp))).trans ((setWaves_only _ v).mono (by simp))).trans
      (hmarked.mono (by simp))
  · rw [Resolved, hmresolution, hmslot]
    rfl
  · rw [markEnded_event, hwevent]
  · rw [markEnded_lur, hwlur, huoverride]
  · have hm : (markEnded w).mxp = u.mxp := Eq.trans (hmarked .mxp (by simp)) (hbuilt .mxp (by simp))
    rw [hm, hmxp, hmkeys]
    simp only [hmslot, hslots]
  · have hcrs : (markEnded w).crs = v.crs := hmarked .crs (by simp)
    have hucrs : u.crs = s.crs := hafresh .crs (by simp)
    rw [PagesOnly, hcrs, hpages, hucrs]
  · have hheld : (markEnded w).mapPageHeld n = v.mapPageHeld n := by
      rw [State.mapPageHeld, hmarked .crs (by simp)]
      rfl
    rw [hheld, hmaps n hn]
    exact mapPage_of_slots (fun k => by rw [hmslot, hslots]) n |>.symm
  · have hheld : (markEnded w).eventPageHeld n = v.eventPageHeld n := by
      rw [State.eventPageHeld, hmarked .crs (by simp)]
      rfl
    rw [hheld, heventPages n hn]
    refine (eventPage_of_entries (fun k => ?_) n).symm
    rw [markEnded_pageEvent]
    simp only [pageEvent, event_congr (congrArg Lur.events hwlur)]
  · rw [aen_of_only hmarked (by simp) (by simp), ← hvaen]
    rfl

/-! ## The drain's start (R149) -/

theorem pendingDrops_pos_iff {s : State} : 0 < s.pendingDrops ↔ ∃ d, 0 < (s.drop d).pending := by
  rw [State.pendingDrops, List.length_pos_iff_exists_mem]
  simp only [List.mem_filter, decide_eq_true_eq]
  refine exists_congr fun d => ⟨fun h => h.2, fun h => ⟨?_, h⟩⟩
  by_contra hd
  rw [State.drop, get_of_not_mem_keys _ hd] at h
  exact absurd h (by decide)

theorem startDrain_only (s : State) : OnlyChanges [.bjn] s (startDrain s) :=
  (only_bjn _ s).ite (OnlyChanges.refl _ s)

theorem startDrain_runs {s : State} (h : s.bjn.held.length < 4096 ∧ ∃ d, 0 < (s.drop d).pending) :
    (startDrain s).bjn = { s.bjn with drainCursor := 0, drainLeft := some 2048 } := by
  have hstart : 1 ≤ s.free ∧ 0 < s.pendingDrops := ⟨Nat.sub_pos_of_lt h.1, pendingDrops_pos_iff.mpr h.2⟩
  rw [startDrain, if_pos hstart]

theorem startDrain_idle {s : State} (h : ¬(s.bjn.held.length < 4096 ∧ ∃ d, 0 < (s.drop d).pending)) :
    startDrain s = s := by
  refine if_neg fun ⟨hfree, hpending⟩ => h ⟨?_, pendingDrops_pos_iff.mp hpending⟩
  unfold State.free at hfree
  omega

/-! ## The tables taken from an image (R177) -/

theorem loadTables_only (i : SavedImage) (s : State) :
    OnlyChanges [.params, .smn, .lur, .crs, .ppl, .dtb, .pin, .bjn] s (loadTables i s) := fun p hp => by
  cases p with
  | params | smn | lur | crs | ppl | dtb | pin | bjn => simp at hp
  | _ => rfl

/-- What the records of a written list are, its tables hold. -/
theorem get_ofList {α : Type} [DecidableEq α] {blank : Nat → α} {p : Nat → α → Prop} (hblank : ∀ k, p k (blank k))
    {l : List (Nat × α)} (h : ∀ e ∈ l, p e.1 e.2) (k : Nat) : p k (Table.get blank (Table.ofList blank l) k) := by
  have hfold : ∀ (l : List (Nat × α)) (t : Table α), (∀ e ∈ l, p e.1 e.2) → (∀ k, p k (Table.get blank t k)) →
      ∀ k, p k (Table.get blank (l.foldl (fun t e => Table.set blank t e.1 e.2) t) k) := by
    intro l
    induction l with
    | nil => exact fun t _ ht => ht
    | cons e l ih =>
      refine fun t hl ht => ih _ (fun e' he' => hl e' (List.mem_cons_of_mem _ he')) fun k => ?_
      rw [get_set]
      split
      · next hk => exact hk ▸ hl e (by simp)
      · exact ht k
  exact hfold l [] h hblank k

/-- A loaded event is SCHEDULED, or ENDED once cancelled (R9). -/
theorem loadTables_not_showing (i : SavedImage) (s : State) (j : Nat) (e : Event)
    (h : (loadTables i s).event j = some e) : e.state ≠ .showing := by
  have hall := get_ofList (blank := fun _ => none)
    (p := fun _ (x : Option Event) => ∀ e, x = some e → e.state ≠ .showing) (fun _ e he => by cases he)
    (l := i.events.map fun e => (e.1, some (loadedEvent e.2))) (fun x hx e he => by
      obtain ⟨y, -, rfl⟩ := List.mem_map.mp hx
      obtain rfl := Option.some.inj he
      unfold loadedEvent
      dsimp only
      split <;> simp) j
  exact hall e h

/-! ## The end of the load (R178) -/

theorem happens_loadEnd {r : FlashRead} {s : State} {res : LoadResult} {image : Option (Nat × SavedImage)}
    (hload : s.sst.runState = .loading) (hwaves : s.aen.waves = []) (hlen : r.header.length = 14)
    (hj : judgeLoad s.sst.held r = (res, image)) :
    Loads r s res ((image.map Prod.fst).getD 0) (image.map Prod.snd) := by
  let i := (image.map Prod.snd).getD blankImage
  let u := loadTables i s
  let w := u.setSst (s.sst.loaded res image)
  have hexec : exec (.loadEnd r) s = done (startDrain (resolveAfterReset w)) := by
    have hwell : r.wellFormed = true := by simp [FlashRead.wellFormed, hlen]
    have hend : loadEnd r s = startDrain (resolveAfterReset w) := by
      rw [loadEnd, hj]
      rfl
    change execLoadEnd r s = _
    simp only [execLoadEnd, hwell, Bool.not_true, Bool.false_eq_true, if_false, if_pos hload, hend]
  have hbegun : Begun w (resolveAfterReset w) := begun_resolveAfterReset (loadTables_not_showing i s) hwaves
  generalize resolveAfterReset w = v at *
  have hvbjn : v.bjn = ⟨i.journal, i.nextSeq, i.period, 0, none⟩ := hbegun.only .bjn (by simp)
  have hdrain := startDrain_only v
  have hleft : (startDrain v).bjn = ⟨i.journal, i.nextSeq, i.period, 0, (startDrain v).bjn.drainLeft⟩
      ∧ ((i.journal.length < 4096 ∧ ∃ d, 0 < ((startDrain v).drop d).pending) →
          (startDrain v).bjn.drainLeft = some 2048)
      ∧ (¬(i.journal.length < 4096 ∧ ∃ d, 0 < ((startDrain v).drop d).pending) →
          (startDrain v).bjn.drainLeft = none) := by
    have hdrops : ∀ d, (startDrain v).drop d = v.drop d := drop_congr (hdrain .dtb (by simp))
    have hheld : v.bjn.held.length = i.journal.length := by rw [hvbjn]
    simp only [hdrops, ← hheld]
    by_cases hstart : v.bjn.held.length < 4096 ∧ ∃ d, 0 < (v.drop d).pending
    · rw [startDrain_runs hstart, hvbjn]
      exact ⟨rfl, fun _ => rfl, fun h => absurd (hvbjn ▸ hstart) h⟩
    · rw [startDrain_idle hstart]
      exact ⟨by rw [hvbjn], fun h => absurd h hstart, fun _ => by rw [hvbjn]⟩
  generalize startDrain v = x at *
  have hlur : x.lur = v.lur := hdrain .lur (by simp)
  have hcrs : x.crs = v.crs := hdrain .crs (by simp)
  have hslot : ∀ k, x.slot k = v.slot k := fun k => by rw [slot_congr hlur]
  have hevent : x.event = v.event := event_congr (congrArg Lur.events hlur)
  have honly : OnlyChanges [.bjn, .lur, .mxp, .crs, .waves] w x :=
    (hbegun.only.mono (by simp)).trans (hdrain.mono (by simp))
  have hload : OnlyChanges [.sst, .params, .smn, .lur, .crs, .ppl, .dtb, .pin, .bjn] s w :=
    ((loadTables_only i s).mono (by simp)).trans ((setSst_only _ u).mono (by simp))
  refine happens_done hexec ((hload.mono (by simp)).trans (honly.mono (by simp))) ⟨?_, honly .params (by simp),
    honly .smn (by simp), honly .ppl (by simp), honly .dtb (by simp), honly .pin (by simp), fun k => ⟨?_, ?_⟩,
    fun k => ?_, ?_, ?_, ?_, fun n hn => ?_, fun n hn => ?_, ?_, hleft⟩
  · refine Eq.trans (honly .sst (by simp)) ?_
    cases image with
    | none => cases hheld : s.sst.held <;> simp [w, State.setSst, Sst.loaded, FlashHeld.withoutImage, hheld]
    | some e => rfl
  · change x.slot k = { u.slot k with resolved := (x.slot k).resolved, step := (x.slot k).step }
    rw [hslot, hbegun.slots]
    rfl
  · exact resolved_congr (hbegun.resolved k) hlur (hdrain .smn (by simp))
  · change x.event k = _
    rw [hevent, hbegun.events]
    rfl
  · exact Eq.trans (congrArg Lur.override hlur) hbegun.override
  · refine Eq.trans (hdrain .mxp (by simp)) (hbegun.mxp.trans ?_)
    have hkeys : x.slotKeys = v.slotKeys := by rw [State.slotKeys, State.slotKeys, hlur]
    change _ = { s.mxp with
      queue := (x.slotKeys.filter fun k => (x.slot k).cfg.enabled).map fun k => ⟨k, (x.slot k).resolved⟩ }
    simp only [hkeys, hslot]
    rfl
  · refine Eq.trans hcrs (Eq.trans hbegun.pages ?_)
    rw [← hcrs]
    rfl
  · have hheld : x.mapPageHeld n = v.mapPageHeld n := by rw [State.mapPageHeld, State.mapPageHeld, hcrs]
    exact (hheld.trans (hbegun.maps n hn)).trans (mapPage_congr hlur n).symm
  · have hheld : x.eventPageHeld n = v.eventPageHeld n := by rw [State.eventPageHeld, State.eventPageHeld, hcrs]
    exact (hheld.trans (hbegun.eventPages n hn)).trans (eventPage_congr (congrArg Lur.events hlur) n).symm
  · exact (aen_of_only hdrain (by simp) (by simp)).trans hbegun.aen

/-! ## What judges the image (R178) -/

theorem blankHeader_iff {h : List Byte} : blankHeader h = true ↔ ∀ b ∈ h, b = 0xFF#8 := by simp [blankHeader]

/-- The header and the body that are read hold the image of `i` (R177, R178). -/
def HoldsImage (r : FlashRead) (i : SavedImage) : Prop :=
  headerNumber r.header 0 2 = 1 ∧ 1 ≤ headerNumber r.header 2 4 ∧ headerNumber r.header 2 4 ≤ 1044480
    ∧ headerNumber r.header 2 4 ≤ r.body.length
    ∧ (crc32 (r.body.take (headerNumber r.header 2 4))).toNat = headerNumber r.header 10 4 ∧ r.content = some i
    ∧ imageFits i = true

theorem judgeImage_blank {r : FlashRead} (h : ∀ b ∈ r.header, b = 0xFF#8) : judgeImage r = (.blank, none) :=
  if_pos (blankHeader_iff.mpr h)

theorem judgeImage_holds {r : FlashRead} {i : SavedImage} (hb : ¬∀ b ∈ r.header, b = 0xFF#8) (h : HoldsImage r i) :
    judgeImage r = (.loaded, some (headerNumber r.header 6 4, i)) := by
  obtain ⟨hversion, hmin, hmax, hbody, hcheck, hcontent, hfits⟩ := h
  have hblank : blankHeader r.header = false := Bool.eq_false_iff.mpr (mt blankHeader_iff.mp hb)
  simp [judgeImage, hblank, hversion, hmin, hmax, hbody, hcheck, hcontent, Option.filter, hfits]

theorem judgeImage_invalid {r : FlashRead} (hb : ¬∀ b ∈ r.header, b = 0xFF#8) (h : ∀ i, ¬HoldsImage r i) :
    judgeImage r = (.invalid, none) := by
  have hblank : blankHeader r.header = false := Bool.eq_false_iff.mpr (mt blankHeader_iff.mp hb)
  simp only [judgeImage, hblank, Bool.false_eq_true, if_false]
  split
  · next hheader =>
    obtain ⟨hversion, hmin, hmax, hbody, hcheck⟩ := hheader
    cases hcontent : r.content.filter imageFits with
    | none => rfl
    | some i =>
      obtain ⟨hc, hfits⟩ := Option.filter_eq_some_iff.mp hcontent
      exact absurd ⟨hversion, hmin, hmax, hbody, hcheck, hc, hfits⟩ (h i)
  · rfl

theorem judgeLoad_reads {h : FlashHeld} (hh : h = .asAttached ∨ ∃ g i, h = .image g i) (r : FlashRead) :
    judgeLoad h r = judgeImage r := by
  rcases hh with rfl | ⟨g, i, rfl⟩ <;> rfl

theorem judgeLoad_blank {r : FlashRead} (hb : ∀ b ∈ r.header, b = 0xFF#8) (h : FlashHeld) :
    judgeLoad h r = (.blank, none) := by
  cases h with
  | asAttached => exact judgeImage_blank hb
  | image g i => exact judgeImage_blank hb
  | torn => exact congrArg (·, none) (if_pos (blankHeader_iff.mpr hb))
  | erased => rfl

/-- Settles O49: POWER_ON by definition, and the end of a load by what judges the image. -/
theorem powerOnAndLoad : Obligations.PowerOnAndLoad := by
  refine ⟨fun s => rfl, fun r s hload hwaves hlen => ?_⟩
  have hend := fun {res image} => happens_loadEnd (r := r) (s := s) (res := res) (image := image) hload hwaves hlen
  refine ⟨fun hb => hend (judgeLoad_blank hb _), fun hb hh => ⟨fun i hi => ?_, fun hno => ?_⟩, fun hb hh => ?_,
    fun hb hh => ?_, fun g i hh hg hr => ⟨fun hfits => ?_, fun hfits => ?_⟩⟩
  · exact hend ((judgeLoad_reads hh r).trans (judgeImage_holds hb hi))
  · exact hend ((judgeLoad_reads hh r).trans (judgeImage_invalid hb hno))
  · refine hend (image := none) ?_
    rw [hh]
    exact congrArg (·, none) (if_neg (mt blankHeader_iff.mp hb))
  · refine hend (image := none) ?_
    rw [hh]
    rfl
  · have hjudged := judgeImage_imageRead g i (by omega)
    rw [if_pos hfits, ← hr] at hjudged
    exact hend (image := some (g, i)) ((judgeLoad_reads (.inr ⟨g, i, hh⟩) r).trans hjudged)
  · have hjudged := judgeImage_imageRead g i (by omega)
    rw [if_neg (by simp [hfits]), ← hr] at hjudged
    exact hend (image := none) ((judgeLoad_reads (.inr ⟨g, i, hh⟩) r).trans hjudged)

end Sys2Proof.Proofs

/-! PROOFS. The slot boundary: the misses it hands out (O52), the slot it begins with FILLER (O50), and the grant in RUN
(O51). -/

namespace Sys2Proof.Proofs

open Sys2Proof Sys2Proof.Machine Sys2Proof.Laws

/-! ## What stands before the slot begins -/

theorem settleBoundary_of_nothingOwed {s : State} (h : NothingOwed s) (hdue : s.tmb.advanceDue = false) :
    settleBoundary s = s := by
  rw [settleBoundary, State.secondDue, hdue, if_neg Bool.false_ne_true, settleSecond_of_nothingOwed h]

theorem boundaryCount_eq (s : State) : boundaryCount s = { s with rsw := refreshCounted s } := by
  unfold boundaryCount refreshCounted State.countsRefresh refreshCount
  cases hcounted : s.rsw.counted with
  | true => rfl
  | false =>
    by_cases hload : s.sst.runState = .loading
    · simp [hload]
    · by_cases hexpires : s.params.refreshStep ≤ s.rsw.counter + 1 <;> simp [hload, hexpires]

theorem handMiss_only (w : Window) (s : State) :
    OnlyChanges [.dtb, .queue, .attn, .olz, .rsw, .ppl] s (handMiss w s) := by
  unfold handMiss
  split
  · exact (authMiss_only _ s).mono (by simp)
  · exact (refreshMiss_spec _ s).1.mono (by simp)
  · exact (pollMiss_only w s).mono (by simp)

theorem closeWindows_boundaryCount (s : State) : closeWindows (boundaryCount s) = missesTaken s := by
  rw [boundaryCount_eq]
  rfl

/-- The refresh count is taken and the windows due are no longer open. -/
def windowsClosed (s : State) : State :=
  { s with
    rsw := refreshCounted s
    csc := { s.csc with windows := s.csc.windows.filter fun w => some w.closing != s.csc.slotNumber } }

theorem windowsClosed_only (s : State) : OnlyChanges [.csc, .rsw] s (windowsClosed s) := fun p hp => by
  cases p with
  | csc => simp at hp
  | rsw => simp at hp
  | _ => rfl

theorem missesTaken_after_windowsClosed (s : State) :
    OnlyChanges [.dtb, .queue, .attn, .olz, .rsw, .ppl] (windowsClosed s) (missesTaken s) :=
  .foldl _ (fun u w => handMiss_only w u) _ _

theorem missesTaken_only (s : State) :
    OnlyChanges [.csc, .dtb, .queue, .attn, .olz, .rsw, .ppl] s (missesTaken s) :=
  ((windowsClosed_only s).mono (by simp)).trans ((missesTaken_after_windowsClosed s).mono (by simp))

theorem missesTaken_slotNumber (s : State) : (missesTaken s).csc.slotNumber = s.csc.slotNumber := by
  have hcsc : { (missesTaken s).csc with marks := s.csc.marks } = (windowsClosed s).csc :=
    missesTaken_after_windowsClosed s .csc (by simp)
  exact (congrArg Csc.slotNumber hcsc :)

theorem missesTaken_sst (s : State) : (missesTaken s).sst = s.sst := missesTaken_only s .sst (by simp)

theorem missesTaken_of_none_due {s : State} (h : ∀ w ∈ s.csc.windows, some w.closing ≠ s.csc.slotNumber) :
    missesTaken s = { s with rsw := refreshCounted s } := by
  have hdue : (s.csc.windows.filter fun w => some w.closing == s.csc.slotNumber) = [] :=
    List.filter_eq_nil_iff.mpr fun w hw => by simpa using h w hw
  have hopen : (s.csc.windows.filter fun w => some w.closing != s.csc.slotNumber) = s.csc.windows :=
    List.filter_eq_self.mpr fun w hw => by simpa using h w hw
  rw [missesTaken, hdue, hopen]
  rfl

theorem counted_eq (m : Tmb) : m.counted = phaseCounted m := by
  unfold Tmb.counted phaseCounted
  by_cases h : m.phase < 249
  · rw [if_neg (by omega), if_pos h]
  · rw [if_pos (by omega), if_neg h]

/-- A boundary at which nothing is owed is the misses, the end of STOPPING and the slot that begins. -/
theorem exec_slotBoundary {s : State} (h : NothingOwed s) (hdue : s.tmb.advanceDue = false) :
    exec .slotBoundary s = done (countPhase (fillSlot ({ s with rsw := refreshCounted s } : State).owedMarks
      (slotAfter (missesTaken s)) (stoppingEnd (missesTaken s)))) := by
  have hslot : (boundaryCount s).nextSlot = slotAfter (missesTaken s) := by
    rw [slotAfter, missesTaken_slotNumber, boundaryCount_eq]
    rfl
  change done (slotBoundary (settleBoundary s)) = _
  rw [settleBoundary_of_nothingOwed h hdue, slotBoundary, closeWindows_boundaryCount, hslot, boundaryCount_eq]

theorem beginSlot_only (n : Word) (g : Option Sender) (f : Frame) (s : State) :
    OnlyChanges [.csc] s (beginSlot n g f s) := fun p hp => by
  cases p with
  | csc => simp at hp
  | _ => rfl

/-! ## A slot with FILLER (R40, R41, R53) -/

theorem stoppingEnd_of_run {s : State} (h : s.sst.runState = .run) : stoppingEnd s = s :=
  if_neg fun hstop => by simp [h] at hstop

theorem stoppingEnd_not_run {s : State} (h : s.sst.runState ≠ .run) : (stoppingEnd s).sst.runState ≠ .run := by
  unfold stoppingEnd
  split
  · exact RunState.noConfusion
  · exact h

theorem sst_stoppingEnd (s : State) : (stoppingEnd s).sst =
    if s.sst.runState = .stopping ∧ s.csc.windows = [] then { s.sst with runState := .standby } else s.sst := by
  unfold stoppingEnd
  split <;> rfl

theorem fillerBegun {before : Marks} {m : State} (h : m.sst.runState ≠ .run) :
    FillerBegun m (countPhase (fillSlot before (slotAfter m) (stoppingEnd m))).report := by
  have hfill : fillSlot before (slotAfter m) (stoppingEnd m)
      = beginSlot (slotAfter m) none fillerFrame (stoppingEnd m) := if_neg (stoppingEnd_not_run h)
  have hends := stoppingEnd_only m
  rw [hfill]
  refine ⟨?_, ?_, ?_, sst_stoppingEnd m⟩
  · exact ((hends.mono (by simp)).trans ((beginSlot_only _ _ _ _).mono (by simp))).trans
      (((setTmb_only _ _).mono (by simp)).trans ((report_only _).mono (by simp)))
  · have hcsc : { (stoppingEnd m).csc with marks := m.csc.marks } = m.csc := hends .csc (by simp)
    rw [← hcsc]
    rfl
  · exact (counted_eq _).trans (congrArg phaseCounted (hends .tmb (by simp) : (stoppingEnd m).tmb = m.tmb))

theorem fillerBegun_slotBoundary {s : State} (h : NothingOwed s) (hdue : s.tmb.advanceDue = false)
    (hrun : s.sst.runState ≠ .run) : ∃ t, exec .slotBoundary s = .next t ∧ FillerBegun (missesTaken s) t :=
  ⟨_, exec_slotBoundary h hdue, fillerBegun (by rwa [missesTaken_sst])⟩

/-- Settles O50: with no window due, the misses leave the state with the refresh count alone. -/
theorem boundaryOutsideRun : Obligations.BoundaryOutsideRun := by
  unfold Obligations.BoundaryOutsideRun
  intro s hnothing hdue hrun hnone
  obtain ⟨t, hexec, honly, hcsc, htmb, hsst⟩ := fillerBegun_slotBoundary hnothing hdue hrun
  rw [missesTaken_of_none_due hnone] at honly hcsc htmb hsst
  exact ⟨t, hexec, ((only_rsw _ s).mono (by simp)).trans (honly.mono (by simp)), hcsc, htmb,
    honly .rsw (by simp), hsst⟩

end Sys2Proof.Proofs

/-! PROOFS. The grant of a slot in RUN (O51), and the boundary at which windows close (O52). -/

namespace Sys2Proof.Proofs

open Sys2Proof Sys2Proof.Machine Sys2Proof.Laws

/-! ## Which sender may be granted (R42, R43) -/

theorem mayOpen_eq (m : State) (a : Addr) : mayOpen m a =
    (decide (m.csc.windows.length < 3) && m.csc.windows.all fun w => w.address != a) := by
  rw [mayOpen, windowCarries, List.not_any_eq_all_not]
  rfl

theorem mayTake_authorize {m : State} {q : QEntry} {qs : List QEntry} (hq : m.aen.queue = q :: qs) :
    mayTake m .authorize = (m.drop q.drop).address.any (mayOpen m) := by
  simp [mayTake, State.offered, hq, funext (mayOpen_eq m)]

theorem mayTake_poll {m : State} {p : Poll} (hp : m.ppl.poll = some p) :
    mayTake m .poll = (!p.windowOpen && mayOpen m p.address) := by
  cases hopen : p.windowOpen <;> simp [mayTake, State.offered, hp, hopen, mayOpen_eq]

theorem mayTake_refresh {m : State} {d : Nat} (hd : m.candidate = some d) :
    mayTake m .refresh = (m.rsw.request && (m.drop d).address.any (mayOpen m)) := by
  cases hreq : m.rsw.request <;> simp [mayTake, State.offered, hd, hreq, funext (mayOpen_eq m)]

/-! ## A sender that passes -/

/-- The refresh request is consumed unsent once the sender is `reached` with no eligible drop (R91). -/
def declined (reached : Bool) (m : State) : State :=
  { m with rsw :=
      if reached = true ∧ m.rsw.request = true ∧ m.candidate = none ∧ m.csc.windows.length < 3
        then { m.rsw with request := false }
      else m.rsw }

theorem declined_false (m : State) : declined false m = m := by simp [declined]

theorem grantTo_refresh_of_passes (n : Word) {m : State} (h : mayTake m .refresh = false) :
    grantTo n .refresh m = (declined true m, none) := by
  unfold grantTo grantRefresh declined
  cases hreq : m.rsw.request with
  | false => simp
  | true =>
    cases hcand : m.candidate with
    | none => by_cases hroom : m.csc.windows.length < 3 <;> simp [hroom]
    | some d =>
      rw [mayTake_refresh hcand, hreq, Bool.true_and] at h
      cases haddr : (m.drop d).address with
      | none => simp [haddr]
      | some a => simp_all

theorem grantTo_of_passes (n : Word) {x : Sender} {m : State} (hx : x ≠ .refresh) (h : mayTake m x = false) :
    grantTo n x m = (m, none) := by
  cases x with
  | refresh => exact absurd rfl hx
  | alert => exact if_neg (by simpa [mayTake, State.owedMarks] using h)
  | carousel =>
    have hnone : m.nextEntry = none := by simpa [mayTake] using h
    simp [grantTo, hnone]
  | authorize =>
    unfold grantTo grantAuthorize
    cases hq : m.aen.queue with
    | nil => rfl
    | cons q qs =>
      rw [mayTake_authorize hq] at h
      cases haddr : (m.drop q.drop).address with
      | none => simp [haddr]
      | some a => simp_all
  | poll =>
    unfold grantTo grantPoll
    cases hp : m.ppl.poll with
    | none => rfl
    | some p =>
      rw [mayTake_poll hp] at h
      simp [h]

/-! ## A sender that is granted -/

theorem grantTo_alert (n : Word) {m : State} (h : mayTake m .alert = true) : grantTo n .alert m =
    (m.setOverride { m.lur.override with ready := false }, some (alertFrame m)) := if_pos h

theorem grantTo_carousel (n : Word) {m : State} {e : Nat} (h : m.nextEntry = some e) : grantTo n .carousel m =
    (afterSending e m, some (carouselFrame m e)) := by
  simp [grantTo, h]

theorem grantTo_authorize (n : Word) {m : State} {q : QEntry} {qs : List QEntry} {a : Addr}
    (h : mayTake m .authorize = true) (hq : m.aen.queue = q :: qs) (ha : (m.drop q.drop).address = some a) :
    grantTo n .authorize m = (openWindow a .auth q.drop n (sendAuthorize q.drop m),
      some ⟨0x01#8, a, authorizationOf (sendAuthorize q.drop m) ((sendAuthorize q.drop m).drop q.drop)⟩) := by
  rw [mayTake_authorize hq, ha] at h
  simp only [Option.any_some] at h
  simp [grantTo, grantAuthorize, hq, ha, h]

theorem grantTo_poll (n : Word) {m : State} {p : Poll} (h : mayTake m .poll = true) (hp : m.ppl.poll = some p) :
    grantTo n .poll m = (openWindow p.address .poll p.unit n (sendPoll p m), some (pollFrame p)) := by
  rw [mayTake_poll hp] at h
  simp [grantTo, grantPoll, hp, h]

theorem grantTo_refresh (n : Word) {m : State} {d : Nat} {a : Addr} (h : mayTake m .refresh = true)
    (hd : m.candidate = some d) (ha : (m.drop d).address = some a) :
    grantTo n .refresh m = (openWindow a .refresh d n (sendRefresh d m),
      some ⟨0x02#8, a, authorizationOf (sendRefresh d m) ((sendRefresh d m).drop d)⟩) := by
  rw [mayTake_refresh hd, ha, Option.any_some, Bool.and_eq_true] at h
  simp [grantTo, grantRefresh, hd, ha, h.1, h.2]

theorem grantTo_isSome (n : Word) {x : Sender} {m : State} (h : mayTake m x = true) : (grantTo n x m).2.isSome := by
  cases x with
  | alert => simp [grantTo_alert n h]
  | carousel =>
    obtain ⟨e, he⟩ := Option.isSome_iff_exists.mp (show m.nextEntry.isSome = true from h)
    simp [grantTo_carousel n he]
  | authorize =>
    cases hq : m.aen.queue with
    | nil => simp [mayTake, State.offered, hq] at h
    | cons q qs =>
      obtain ⟨a, ha, -⟩ := (Option.any_eq_true _ _).mp ((mayTake_authorize hq).symm.trans h)
      simp [grantTo_authorize n h hq ha]
  | poll =>
    cases hp : m.ppl.poll with
    | none => simp [mayTake, State.offered, hp] at h
    | some p => simp [grantTo_poll n h hp]
  | refresh =>
    cases hd : m.candidate with
    | none => simp [mayTake, State.offered, hd] at h
    | some d =>
      obtain ⟨a, ha, -⟩ := (Option.any_eq_true _ _).mp (Bool.and_eq_true_iff.mp ((mayTake_refresh hd).symm.trans h)).2
      simp [grantTo_refresh n h hd ha]

/-! ## The first sender that is ready and may be granted -/

/-- What the sender `x` leaves, with its frame under its name. -/
def grantedTo (n : Word) (x : Sender) (m : State) : State × Option (Sender × Frame) :=
  ((grantTo n x m).1, (grantTo n x m).2.map fun f => (x, f))

theorem grantFrom_cons_of_takes (ready : Sender → Bool) (n : Word) {x : Sender} (xs : List Sender) {m : State}
    (h : (ready x && mayTake m x) = true) : grantFrom ready n (x :: xs) m = grantedTo n x m := by
  obtain ⟨hready, htake⟩ := Bool.and_eq_true_iff.mp h
  obtain ⟨f, hf⟩ := Option.isSome_iff_exists.mp (grantTo_isSome n htake)
  rw [grantFrom, if_pos hready, grantedTo]
  cases hg : grantTo n x m with
  | mk u o =>
    rw [hg] at hf
    cases hf
    rfl

theorem grantFrom_cons_of_passes (ready : Sender → Bool) (n : Word) {x : Sender} (xs : List Sender) {m : State}
    (hx : x ≠ .refresh) (h : (ready x && mayTake m x) = false) :
    grantFrom ready n (x :: xs) m = grantFrom ready n xs m := by
  rw [grantFrom]
  cases hready : ready x with
  | false => rfl
  | true =>
    rw [hready, Bool.true_and] at h
    simp [grantTo_of_passes n hx h]

theorem grantFrom_append (ready : Sender → Bool) (n : Word) {xs : List Sender} (ys : List Sender) {m : State}
    (hxs : Sender.refresh ∉ xs) : grantFrom ready n (xs ++ ys) m =
      match xs.find? fun x => ready x && mayTake m x with
      | some x => grantedTo n x m
      | none => grantFrom ready n ys m := by
  induction xs with
  | nil => rfl
  | cons x xs ih =>
    obtain ⟨hx, hrest⟩ := not_or.mp (List.mem_cons.not.mp hxs)
    rw [List.cons_append, List.find?_cons]
    cases h : ready x && mayTake m x with
    | true => exact grantFrom_cons_of_takes ready n _ h
    | false => exact (grantFrom_cons_of_passes ready n _ (Ne.symm hx) h).trans (ih hrest)

/-- The sender that gets the slot: the first in rank order that is ready and may take it (R43). -/
def winner (ready : Sender → Bool) (m : State) : Option Sender :=
  (senderRanks m).find? fun x => ready x && mayTake m x

/-- The ranks above the refresh sweeper's (R43, R44). -/
def ranksAboveRefresh (m : State) : List Sender :=
  [.alert] ++ (if m.params.carouselFloor ≤ m.csc.floor then [.carousel] else []) ++ [.authorize, .poll]

theorem senderRanks_eq (m : State) : senderRanks m = ranksAboveRefresh m ++ [.refresh, .carousel] := by
  simp [senderRanks, ranksAboveRefresh]

theorem refresh_not_mem_ranksAboveRefresh (m : State) : Sender.refresh ∉ ranksAboveRefresh m := by
  simp [ranksAboveRefresh]

theorem carousel_mem_ranksAboveRefresh {m : State} :
    Sender.carousel ∈ ranksAboveRefresh m ↔ m.params.carouselFloor ≤ m.csc.floor := by
  simp [ranksAboveRefresh]

theorem grantFrom_lowest (ready : Sender → Bool) (n : Word) (m : State)
    (hpass : (ready .refresh && mayTake m .refresh) = false) : grantFrom ready n [.refresh, .carousel] m =
      if (ready .carousel && mayTake m .carousel) = true then grantedTo n .carousel (declined (ready .refresh) m)
      else (declined (ready .refresh) m, none) := by
  have hrefresh : grantFrom ready n [.refresh, .carousel] m
      = grantFrom ready n [.carousel] (declined (ready .refresh) m) := by
    rw [grantFrom]
    cases hready : ready .refresh with
    | false => rw [declined_false]; rfl
    | true =>
      rw [hready, Bool.true_and] at hpass
      simp [grantTo_refresh_of_passes n hpass]
  rw [hrefresh]
  cases htake : ready .carousel && mayTake m .carousel with
  | true => exact grantFrom_cons_of_takes ready n [] htake
  | false => exact grantFrom_cons_of_passes ready n [] Sender.noConfusion htake

/-- What the grant does, by the sender that gets it. -/
theorem grantFrom_ranks (ready : Sender → Bool) (n : Word) (m : State) : grantFrom ready n (senderRanks m) m =
    match winner ready m with
    | none => (declined (ready .refresh) m, none)
    | some .carousel => grantedTo n .carousel
        (declined (ready .refresh && decide (m.csc.floor < m.params.carouselFloor)) m)
    | some x => grantedTo n x m := by
  rw [winner, senderRanks_eq, grantFrom_append ready n _ (refresh_not_mem_ranksAboveRefresh m), List.find?_append]
  cases habove : (ranksAboveRefresh m).find? fun x => ready x && mayTake m x with
  | some x =>
    have hmem := List.mem_of_find?_eq_some habove
    cases x with
    | carousel =>
      have hfloor := carousel_mem_ranksAboveRefresh.mp hmem
      simp [Nat.not_lt.mpr hfloor, declined_false]
    | _ => rfl
  | none =>
    rw [Option.none_or]
    cases hrefresh : ready .refresh && mayTake m .refresh with
    | true => simp [hrefresh, grantFrom_cons_of_takes ready n _ hrefresh]
    | false =>
      rw [grantFrom_lowest ready n m hrefresh]
      cases hcarousel : ready .carousel && mayTake m .carousel with
      | false => simp [hrefresh, hcarousel]
      | true =>
        have hfloor : m.csc.floor < m.params.carouselFloor := Nat.not_le.mp fun hle =>
          List.find?_eq_none.mp habove _ (carousel_mem_ranksAboveRefresh.mpr hle) hcarousel
        simp [hrefresh, hcarousel, hfloor]

/-! ## What the senders' owners leave -/

theorem csc_of_agree {s t : State} (h : Agree .csc s t) (hmarks : Agree .marks s t) : t.csc = s.csc := by
  have hcsc : { t.csc with marks := s.csc.marks } = s.csc := h
  rw [← hcsc, ← (hmarks : t.csc.marks = s.csc.marks)]

theorem setCrs_only (c : Crs) (s : State) : OnlyChanges [.crs, .attn] s { s with crs := c } :=
  (only_crs c s).mono (by simp)

theorem completeCircuit_only (s : State) : OnlyChanges [.crs, .attn] s (completeCircuit s) := by
  unfold completeCircuit
  dsimp only
  split
  · exact .ite (OnlyChanges.trans (setCrs_only _ s) ((raise_only .carousel _).mono (by simp))) (setCrs_only _ s)
  all_goals exact setCrs_only _ s

theorem afterSending_only (e : Nat) (s : State) : OnlyChanges [.crs, .attn] s (afterSending e s) := by
  have hmoved := (setCrs_only { s.crs with cursor := e + 1 } s).ite
    (c := ((List.range 16).any fun k => e < k && s.eligibleEntry k) = true) (completeCircuit_only s)
  unfold afterSending
  dsimp only
  split
  · exact hmoved
  · exact hmoved
  all_goals exact .refl _ s

theorem carouselSent_afterSending (e : Nat) (s : State) : CarouselSent e s (afterSending e s) := by
  unfold CarouselSent afterSending completeCircuit
  dsimp only
  cases hmode : s.crs.mode with
  | hold _ => exact ⟨rfl, raised_nil s⟩
  | stopped => exact ⟨rfl, raised_nil s⟩
  | cycle =>
    cases hmore : (List.range 16).any fun k => decide (e < k) && s.eligibleEntry k with
    | true => exact ⟨rfl, raised_nil s⟩
    | false => exact ⟨rfl, raised_nil s⟩
  | burst _ =>
    cases hmore : (List.range 16).any fun k => decide (e < k) && s.eligibleEntry k with
    | true => exact ⟨rfl, raised_nil s⟩
    | false =>
      by_cases hlast : 1 < s.crs.burst
      · simp only [hlast, Nat.not_le.mpr hlast]
        exact ⟨rfl, raised_nil s⟩
      · simp only [hlast, Nat.not_lt.mp hlast]
        exact ⟨rfl, raised_raise .carousel s _ rfl⟩

theorem authorizationOf_congr {s t : State} (hlur : t.lur = s.lur) (hparams : t.params = s.params) (r : Drop) :
    authorizationOf t r = authorizationOf s r := by
  have hslots : grantsSlot t r = grantsSlot s r := by
    funext k
    simp only [grantsSlot, State.slot, State.findEvent, State.eventEntries, State.event, hlur]
  simp only [authorizationOf, hslots, hparams]

/-! ## The slot that begins -/

/-- The slot `n` carries `f` for `g`, the floor count is taken, the phase counted, and the owners report. -/
def slotTaken (n : Word) (g : Option Sender) (f : Frame) (u : State) : State :=
  (countPhase (beginSlot n g f { u with csc := { u.csc with floor := floorAfter g u.csc.floor } })).report

theorem slotTaken_only (n : Word) (g : Option Sender) (f : Frame) (u : State) :
    OnlyChanges [.csc, .marks, .tmb] u (slotTaken n g f u) := fun p hp => by
  cases p with
  | csc => simp at hp
  | marks => simp at hp
  | tmb => simp at hp
  | _ => rfl

theorem slotTaken_slot (n : Word) (g : Option Sender) (f : Frame) {m u : State} {ws : List Window}
    (hcsc : u.csc = { m.csc with windows := ws }) (htmb : u.tmb = m.tmb) :
    (slotTaken n g f u).csc = { m.csc with
        slotNumber := some n, granted := g, frame := some f, windows := ws, marks := (slotTaken n g f u).csc.marks
        floor := if g = some .carousel then 0 else min 250 (m.csc.floor + 1) }
      ∧ (slotTaken n g f u).tmb = phaseCounted m.tmb := by
  constructor
  · rw [show (slotTaken n g f u).csc = { u.csc with
      slotNumber := some n, granted := g, frame := some f, floor := floorAfter g u.csc.floor
      marks := (slotTaken n g f u).csc.marks } from rfl, hcsc]
    rfl
  · exact (counted_eq u.tmb).trans (by rw [htmb])

/-- The free value of the boundary has been drawn. -/
def drawn (m : State) : State := { m with draws := m.draws + 1 }

/-- The next slot in RUN on the readiness `ready`: what the grant leaves, and the slot on it. -/
def slotOn (ready : Sender → Bool) (m : State) : State :=
  let r := grantFrom ready (slotAfter m) (senderRanks m) (drawn m)
  slotTaken (slotAfter m) (r.2.map Prod.fst) ((r.2.map Prod.snd).getD fillerFrame) r.1

theorem done_grantSlot (before : Marks) (m : State) : done (countPhase (grantSlot before (slotAfter m) m)) =
    .next (slotOn (heldReadiness m.draws before m.owedMarks) m) := by
  have hranks : m.ranks = senderRanks m := rfl
  have hdrawn : { m with draws := m.draws + 1 } = drawn m := rfl
  rw [grantSlot, slotOn, hranks, hdrawn]
  generalize grantFrom _ _ _ _ = r
  obtain ⟨u, _ | ⟨x, f⟩⟩ := r
  · rfl
  · rfl

theorem drawn_only (m : State) : OnlyChanges [.draws] m (drawn m) := fun p hp => by
  cases p with
  | draws => simp at hp
  | _ => rfl

theorem declined_only (reached : Bool) (m : State) : OnlyChanges [.rsw] m (declined reached m) := only_rsw _ m

theorem winner_mayTake {ready : Sender → Bool} {m : State} {x : Sender} (h : winner ready m = some x) :
    mayTake m x = true :=
  (Bool.and_eq_true_iff.mp (List.find?_some h :)).2

/-- What the carousel is granted on: below its floor count the refresh sender has been reached before it (R43, R91). -/
def passedOver (ready : Sender → Bool) (m : State) : State :=
  declined (ready .refresh && decide (m.csc.floor < m.params.carouselFloor)) (drawn m)

theorem passedOver_only (ready : Sender → Bool) (m : State) : OnlyChanges [.rsw] (drawn m) (passedOver ready m) :=
  declined_only _ _

/-! ## The slot by the sender that gets it -/

section
variable {ready : Sender → Bool} {m : State}

theorem grantFrom_drawn : grantFrom ready (slotAfter m) (senderRanks m) (drawn m) =
    match winner ready m with
    | none => (declined (ready .refresh) (drawn m), none)
    | some .carousel => grantedTo (slotAfter m) .carousel
        (declined (ready .refresh && decide (m.csc.floor < m.params.carouselFloor)) (drawn m))
    | some x => grantedTo (slotAfter m) x (drawn m) :=
  grantFrom_ranks ready (slotAfter m) (drawn m)

theorem slotOn_of_none (h : winner ready m = none) : slotOn ready m =
    slotTaken (slotAfter m) none fillerFrame (declined (ready .refresh) (drawn m)) := by
  have hgrant := grantFrom_drawn (ready := ready) (m := m)
  rw [h] at hgrant
  rw [slotOn, hgrant]
  rfl

theorem slotOn_of_carousel {e : Nat} (h : winner ready m = some .carousel) (he : m.nextEntry = some e) :
    slotOn ready m = slotTaken (slotAfter m) (some .carousel) (carouselFrame m e)
      (afterSending e (passedOver ready m)) := by
  have hgrant := grantFrom_drawn (ready := ready) (m := m)
  have hcarousel := fun reached => grantTo_carousel (slotAfter m) (m := declined reached (drawn m)) he
  simp only [h, grantedTo, hcarousel] at hgrant
  rw [slotOn, hgrant]
  rfl

theorem slotOn_of_winner {x : Sender} {f : Frame} {u : State} (h : winner ready m = some x) (hx : x ≠ .carousel)
    (hu : grantTo (slotAfter m) x (drawn m) = (u, some f)) :
    slotOn ready m = slotTaken (slotAfter m) (some x) f u := by
  have hgrant := grantFrom_drawn (ready := ready) (m := m)
  rw [h] at hgrant
  have hgranted : grantFrom ready (slotAfter m) (senderRanks m) (drawn m) = (u, some (x, f)) := by
    refine hgrant.trans ?_
    cases x with
    | carousel => exact absurd rfl hx
    | _ => simp [grantedTo, hu]
  rw [slotOn, hgranted]
  rfl

theorem slotOn_only {ps : List Part} {n : Word} {g : Option Sender} {f : Frame} {u : State}
    (h : slotOn ready m = slotTaken n g f u) (hu : OnlyChanges (.csc :: ps) (drawn m) u) :
    OnlyChanges ([.csc, .marks, .tmb, .draws] ++ ps) m (slotOn ready m) := by
  rw [h]
  have hparts : Part.csc :: ps ⊆ [.csc, .marks, .tmb, .draws] ++ ps :=
    List.cons_subset_cons _ fun p hp => by simp [hp]
  exact (((drawn_only m).mono (by simp)).trans (hu.mono hparts)).trans ((slotTaken_only n g f u).mono (by simp))

theorem slotOn_alert (h : winner ready m = some .alert) : slotOn ready m = slotTaken (slotAfter m) (some .alert)
    (alertFrame m) ((drawn m).setOverride { m.lur.override with ready := false }) :=
  slotOn_of_winner h Sender.noConfusion (grantTo_alert (m := drawn m) _ (winner_mayTake h))

theorem slotOn_authorize {q : QEntry} {qs : List QEntry} {a : Addr} (h : winner ready m = some .authorize)
    (hq : m.aen.queue = q :: qs) (ha : (m.drop q.drop).address = some a) : slotOn ready m =
      slotTaken (slotAfter m) (some .authorize)
        ⟨0x01#8, a, authorizationOf (sendAuthorize q.drop (drawn m)) ((sendAuthorize q.drop (drawn m)).drop q.drop)⟩
        (openWindow a .auth q.drop (slotAfter m) (sendAuthorize q.drop (drawn m))) :=
  slotOn_of_winner h Sender.noConfusion (grantTo_authorize (m := drawn m) _ (winner_mayTake h) hq ha)

theorem slotOn_poll {p : Poll} (h : winner ready m = some .poll) (hp : m.ppl.poll = some p) : slotOn ready m =
    slotTaken (slotAfter m) (some .poll) (pollFrame p)
      (openWindow p.address .poll p.unit (slotAfter m) (sendPoll p (drawn m))) :=
  slotOn_of_winner h Sender.noConfusion (grantTo_poll (m := drawn m) _ (winner_mayTake h) hp)

theorem slotOn_refresh {d : Nat} {a : Addr} (h : winner ready m = some .refresh) (hd : m.candidate = some d)
    (ha : (m.drop d).address = some a) : slotOn ready m =
      slotTaken (slotAfter m) (some .refresh)
        ⟨0x02#8, a, authorizationOf (sendRefresh d (drawn m)) ((sendRefresh d (drawn m)).drop d)⟩
        (openWindow a .refresh d (slotAfter m) (sendRefresh d (drawn m))) :=
  slotOn_of_winner h Sender.noConfusion (grantTo_refresh (m := drawn m) _ (winner_mayTake h) hd ha)

theorem sendAuthorize_only (d : Nat) (s : State) : OnlyChanges [.queue, .dtb] s (sendAuthorize d s) :=
  ((setQueue_only _ s).mono (by simp)).trans ((setDrop_only d _ _).mono (by simp))

theorem sendRefresh_only (d : Nat) (s : State) : OnlyChanges [.dtb, .rsw] s (sendRefresh d s) :=
  ((only_rsw _ s).mono (by simp)).trans ((setDrop_only d _ _).mono (by simp))

theorem sendRefresh_rsw {d : Nat} {k : Link} {s : State} (hk : (s.drop d).link = some k) : (sendRefresh d s).rsw =
    { s.rsw with cursor := d, request := false, outstanding := s.rsw.outstanding ++ [⟨d, k⟩] } := by
  have hrsw : (sendRefresh d s).rsw = { s.rsw with
    cursor := d, request := false, outstanding := s.rsw.outstanding ++ [⟨d, (s.drop d).link.getD .unconfirmed⟩] } := rfl
  rw [hrsw, hk, Option.getD_some]

theorem sendAuthorize_drop (d : Nat) (s : State) : OnlyDrop d s (sendAuthorize d s)
    ∧ (sendAuthorize d s).drop d = { s.drop d with link := some .awaiting, attempts := (s.drop d).attempts + 1 } :=
  ⟨onlyDrop_of_setDrop d _ _, (drop_setDrop _ _ _ _).trans (if_pos rfl)⟩

theorem sendRefresh_drop (d : Nat) (s : State) : OnlyDrop d s (sendRefresh d s)
    ∧ (sendRefresh d s).drop d = { s.drop d with link := some .awaiting } :=
  ⟨onlyDrop_of_setDrop d _ _, (drop_setDrop _ _ _ _).trans (if_pos rfl)⟩

theorem openWindow_only {ps : List Part} {s u : State} (h : OnlyChanges ps s u) (a : Addr) (k : WindowKind)
    (owner : Nat) (n : Word) : OnlyChanges (.csc :: ps) s (openWindow a k owner n u) :=
  (h.mono fun _ hp => List.mem_cons_of_mem _ hp).trans ((setWindows_only _ u).mono (by simp))

/-- The refresh request after a slot that no reply-expecting sender and no alert took (R91). -/
theorem slotOn_rsw (h : winner ready m = none ∨ winner ready m = some .carousel) : (slotOn ready m).rsw =
    if ready .refresh = true ∧ m.rsw.request = true ∧ m.candidate = none ∧ m.csc.windows.length < 3
        ∧ (winner ready m = none ∨ (winner ready m = some .carousel ∧ m.csc.floor < m.params.carouselFloor))
      then { m.rsw with request := false } else m.rsw := by
  have hcand : (drawn m).candidate = m.candidate := rfl
  rcases h with h | h
  · rw [slotOn_of_none h, h]
    simp only [true_or, and_true]
    rfl
  · obtain ⟨e, he⟩ := Option.isSome_iff_exists.mp (winner_mayTake h : m.nextEntry.isSome = true)
    rw [slotOn_of_carousel h he, h]
    have hsent := afterSending_only e (passedOver ready m)
    refine Eq.trans (hsent .rsw (by simp)) ?_
    refine if_congr ?_ rfl rfl
    rw [Bool.and_eq_true, decide_eq_true_eq]
    constructor
    · rintro ⟨⟨hready, hfloor⟩, hreq, hnone, hroom⟩
      exact ⟨hready, hreq, hnone, hroom, .inr ⟨rfl, hfloor⟩⟩
    · rintro ⟨hready, hreq, hnone, hroom, hg⟩
      exact ⟨⟨hready, (hg.resolve_left (by simp)).2⟩, hreq, hnone, hroom⟩

theorem grantTaken_slotOn : GrantTaken ready m (slotOn ready m) := by
  unfold GrantTaken
  refine ⟨fun h => slotOn_rsw h, fun h => ?_, fun h => ?_, fun e h he => ?_, fun q qs a h hq ha => ?_, fun p h hp => ?_,
    fun d a k h hd ha hk => ?_⟩
  all_goals rw [show List.find? _ (senderRanks m) = winner ready m from rfl] at *
  · have hslot := slotOn_of_none h
    refine ⟨slotOn_only hslot ((declined_only _ _).mono (by simp)), ?_⟩
    rw [h, hslot]
    exact slotTaken_slot _ none _ rfl rfl
  · have hslot := slotOn_alert h
    refine ⟨slotOn_only hslot ((setOverride_only _ _).mono (by simp)), ?_⟩
    rw [h, hslot]
    exact ⟨slotTaken_slot _ _ _ rfl rfl, rfl⟩
  · have hslot := slotOn_of_carousel h he
    have hsent := afterSending_only e (passedOver ready m)
    refine ⟨slotOn_only hslot (((passedOver_only _ _).mono (by simp)).trans (hsent.mono (by simp))), ?_⟩
    rw [h, hslot]
    exact ⟨slotTaken_slot _ _ _ (csc_of_agree (hsent .csc (by simp)) (hsent .marks (by simp))) (hsent .tmb (by simp)),
      carouselSent_afterSending e (passedOver ready m)⟩
  · have hslot := slotOn_authorize h hq ha
    refine ⟨slotOn_only hslot (openWindow_only (sendAuthorize_only q.drop _) _ _ _ _), ?_⟩
    rw [h, hslot]
    exact ⟨slotTaken_slot _ _ _ rfl rfl, congrArg List.tail hq, sendAuthorize_drop q.drop (drawn m)⟩
  · have hslot := slotOn_poll h hp
    refine ⟨slotOn_only hslot (openWindow_only (setPoll_only _ _) _ _ _ _), ?_⟩
    rw [h, hslot]
    exact ⟨slotTaken_slot _ _ _ rfl rfl, rfl⟩
  · have hslot := slotOn_refresh h hd ha
    refine ⟨slotOn_only hslot (openWindow_only (sendRefresh_only d _) _ _ _ _), ?_⟩
    rw [h, hslot]
    exact ⟨slotTaken_slot _ _ _ rfl rfl, sendRefresh_rsw hk, sendRefresh_drop d (drawn m)⟩

end

/-! ## The boundary (R43, R46) -/

theorem exec_slotBoundary_in_run {s : State} (h : NothingOwed s) (hdue : s.tmb.advanceDue = false)
    (hrun : s.sst.runState = .run) : exec .slotBoundary s =
      .next (slotOn (heldReadiness (missesTaken s).draws ({ s with rsw := refreshCounted s } : State).owedMarks
        (missesTaken s).owedMarks) (missesTaken s)) := by
  have hstill : (missesTaken s).sst.runState = .run := by rwa [missesTaken_sst]
  rw [exec_slotBoundary h hdue, stoppingEnd_of_run hstill, fillSlot, if_pos hstill, done_grantSlot]

theorem heldReadiness_cases (draw : Nat) (before after : Marks) (x : Sender) :
    heldReadiness draw before after x = before.ready x ∨ heldReadiness draw before after x = after.ready x := by
  unfold heldReadiness
  split
  · exact .inr rfl
  · split
    · exact .inr rfl
    · exact .inl rfl

theorem heldReadiness_self (draw : Nat) (marks : Marks) : heldReadiness draw marks marks = marks.ready :=
  funext fun _ => if_pos rfl

/-- Settles O51: with no window due the marks held are those the owners give after the refresh count, and of those
only the sweeper's can differ from what they gave before it. -/
theorem grantInRun : Obligations.GrantInRun := by
  unfold Obligations.GrantInRun
  intro s hnothing hdue hrun hnone
  have hexec := exec_slotBoundary_in_run hnothing hdue hrun
  rw [missesTaken_of_none_due hnone, heldReadiness_self] at hexec
  refine ⟨_, hexec, (congrArg (fun held => GrantTaken held _ _) (funext fun x => ?_)).mp grantTaken_slotOn⟩
  cases x with
  | _ => rfl

/-- The miss of an authorization handed over in a state whose windows are closed and whose refresh count is taken, as it
is before both. -/
def missedAlone (d : Nat) (s : State) : State :=
  { authMiss d (windowsClosed s) with rsw := s.rsw, csc := s.csc }

theorem missedAlone_only (d : Nat) (s : State) : OnlyChanges [.dtb, .queue, .attn, .olz] s (missedAlone d s) :=
  fun p hp => by
    have hmiss := (authMiss_spec d (windowsClosed s)).1
    cases p with
    | rsw => rfl
    | csc => rfl
    | marks => rfl
    | dtb => simp at hp
    | queue => simp at hp
    | attn => simp at hp
    | olz => simp at hp
    | _ => exact hmiss _ hp

theorem missedAlone_begun (d : Nat) (s : State) : OnlyChanges [.csc, .marks, .tmb, .rsw, .sst] (missedAlone d s)
    (authMiss d (windowsClosed s)) := fun p hp => by
  cases p with
  | csc => simp at hp
  | marks => simp at hp
  | rsw => simp at hp
  | _ => rfl

theorem missedAlone_missed (d : Nat) (s : State) : AuthMissed d s (missedAlone d s) := by
  obtain ⟨-, hdrop, holz, hcases⟩ := authMiss_spec d (windowsClosed s)
  exact ⟨missedAlone_only d s, hdrop, holz, hcases⟩

/-- Settles O52: the windows due hand their misses over, and then the slot begins as at any other boundary. -/
theorem lastMissInStopping : Obligations.LastMissInStopping := by
  unfold Obligations.LastMissInStopping
  refine ⟨fun w s hnothing hdue hstop hwindows hclosing hkind => ?_, fun s hnothing hdue hrun => ?_,
    fun s hnothing hdue hrun => ?_, fun w s => ⟨fun hkind => ?_, fun hkind => ?_, fun hkind => ?_⟩⟩
  · obtain ⟨t, hexec, hfiller⟩ := fillerBegun_slotBoundary hnothing hdue (by rw [hstop]; exact RunState.noConfusion)
    have hmisses : missesTaken s = authMiss w.owner (windowsClosed s) := by
      simp [missesTaken, windowsClosed, hwindows, hclosing, handMiss, hkind]
    have hmiss := authMiss_only w.owner (windowsClosed s)
    have hcsc : (authMiss w.owner (windowsClosed s)).csc = { s.csc with windows := [] } := by
      refine (csc_of_agree (hmiss .csc (by simp)) (hmiss .marks (by simp))).trans ?_
      simp [windowsClosed, hwindows, hclosing]
    have hsst : (authMiss w.owner (windowsClosed s)).sst = s.sst := hmiss .sst (by simp)
    rw [hmisses] at hfiller
    obtain ⟨honly, hslot, -, hends⟩ := hfiller
    have halone := (missedAlone_begun w.owner s).trans (honly.mono (by simp))
    rw [hcsc] at hslot hends
    rw [hsst, if_pos ⟨hstop, rfl⟩] at hends
    refine ⟨t, hexec, ((missedAlone_only w.owner s).mono (by simp)).trans (halone.mono (by simp)), hends, ?_, ?_, _,
      missedAlone_only w.owner s, missedAlone_missed w.owner s, halone⟩
    · rw [hslot]
    · rw [hslot, slotAfter, hcsc, ← hclosing]
  · exact fillerBegun_slotBoundary hnothing hdue hrun
  · exact ⟨_, _, fun x => heldReadiness_cases _ _ _ x, exec_slotBoundary_in_run hnothing hdue hrun, grantTaken_slotOn⟩
  · rw [handMiss, hkind]
    exact authMiss_spec w.owner s
  · rw [handMiss, hkind]
    exact refreshMiss_spec w.owner s
  · rw [handMiss, hkind]
    exact pollMiss_spec w s

end Sys2Proof.Proofs

/-! PROOFS. Upstream frames: what is read of their bytes (R47, R56), and the strays (O55). -/

namespace Sys2Proof.Proofs

open Sys2Proof Sys2Proof.Machine Sys2Proof.Laws

/-! ## A frame's bytes (R56) -/

theorem Frame.bytes_eq (f : Frame) : f.bytes = f.kind :: bytesOf 3 f.address.toNat
    ++ BitVec.ofNat 8 f.body.length :: (f.body ++ bytesOf 2 (crc16 f.head).toNat) := by
  simp [Frame.bytes, Frame.head]

/-- A frame of at most 120 body bytes reads back from its bytes. -/
theorem readFrame_bytes {f : Frame} (h : f.body.length ≤ 120) : readFrame f.bytes = some f := by
  have haddr : BitVec.ofNat 24 (numberOf (bytesOf 3 f.address.toNat)) = f.address := by
    rw [numberOf_bytesOf 3 _ f.address.isLt, BitVec.ofNat_toNat, BitVec.setWidth_eq]
  have hlen : (BitVec.ofNat 8 f.body.length).toNat = f.body.length := by
    rw [BitVec.toNat_ofNat, Nat.mod_eq_of_lt (by omega)]
  have hbytes := Frame.bytes_eq f
  rw [bytesOf_three] at hbytes haddr
  rw [hbytes]
  simp only [List.cons_append, List.nil_append, readFrame]
  rw [if_neg (by simp [hlen]; omega), hlen, List.take_left, haddr]
  exact if_pos hbytes

/-- Only the bytes of such a frame are read as one. -/
theorem readFrame_eq_none {bytes : List Byte} (h : ∀ f : Frame, f.body.length ≤ 120 → bytes ≠ f.bytes) :
    readFrame bytes = none := by
  unfold readFrame
  split
  · next kind a b c len rest =>
    split
    · rfl
    · next hfit =>
      dsimp only
      split
      · next hsame =>
        refine absurd hsame.symm (h _ ?_)
        have htake := List.length_take_le len.toNat rest
        dsimp only
        omega
      · rfl
  · rfl

theorem exec_upstreamFrame {f : Frame} {s : State} (h : f.body.length ≤ 120) (hrun : s.sst.runState ≠ .loading) :
    exec (.upstreamFrame f.bytes) s = done (judgeFrame f s) := by
  change execUpstreamFrame f.bytes s = _
  rw [execUpstreamFrame, if_neg hrun, readFrame_bytes h]

theorem exec_upstreamFrame_discarded {bytes : List Byte} {s : State}
    (h : s.sst.runState = .loading ∨ ∀ f : Frame, f.body.length ≤ 120 → bytes ≠ f.bytes) :
    exec (.upstreamFrame bytes) s = .next s := by
  change execUpstreamFrame bytes s = _
  rw [execUpstreamFrame]
  split
  · rfl
  · next hrun => rw [readFrame_eq_none (h.resolve_left hrun)]

/-! ## The form of a frame (R47) -/

theorem frameForm_ack {f : Frame} (h : IsAck f) : ∃ p, frameForm f = .ok (.ack p) := by
  obtain ⟨hkind, hlen⟩ := h
  obtain ⟨p, hp⟩ := List.length_eq_one_iff.mp hlen
  exact ⟨p.toNat, by simp [frameForm, hkind, hp]⟩

theorem frameForm_status {f : Frame} (h : IsStatus f) : ∃ st, frameForm f = .ok (.status st) := by
  obtain ⟨hkind, a, b, c, hbody, ha, hb, hlo, hhi⟩ := h
  exact ⟨⟨a.toNat, b.toNat, c.toInt⟩, by simp [frameForm, hkind, hbody, ha, hb, hlo, hhi]⟩

theorem frameForm_foreign {f : Frame} (hack : f.kind ≠ 0x81#8) (hstatus : f.kind ≠ 0x82#8) :
    frameForm f = .error .foreign := by
  simp [frameForm, hack, hstatus]

theorem frameForm_malformed {f : Frame} (hkind : f.kind = 0x81#8 ∨ f.kind = 0x82#8) (hack : ¬IsAck f)
    (hstatus : ¬IsStatus f) : frameForm f = .error .form := by
  unfold frameForm
  split
  · next h81 =>
    split
    · next p hp => exact absurd ⟨h81, by rw [hp]; rfl⟩ hack
    · rfl
  · next h81 =>
    have h82 := hkind.resolve_left h81
    rw [if_pos h82]
    split
    · next a b c hbody =>
      split
      · next hfit =>
        obtain ⟨ha, hb, hlo, hhi⟩ := hfit
        exact absurd ⟨h82, a, b, c, hbody, ha, hb, hlo, hhi⟩ hstatus
      · rfl
    · rfl

/-- What an intact frame of the two kinds says is an ACK or a STATUS. -/
theorem frameForm_wellFormed {f : Frame} (h : IsAck f ∨ IsStatus f) : ∃ u, frameForm f = .ok u := by
  rcases h with h | h
  · obtain ⟨p, hp⟩ := frameForm_ack h
    exact ⟨_, hp⟩
  · obtain ⟨st, hst⟩ := frameForm_status h
    exact ⟨_, hst⟩

/-! ## Strays (R48, R51) -/

theorem windowOf_eq_none {s : State} {a : Addr} (h : ∀ w ∈ s.csc.windows, w.address ≠ a) : s.windowOf a = none :=
  List.find?_eq_none.mpr fun w hw => by simpa using h w hw

theorem judgeFrame_of_form {f : Frame} {u : Upstream} (h : frameForm f = .ok u) (s : State) :
    judgeFrame f s = matchFrame f u s := by
  rw [judgeFrame, h]

theorem matchFrame_early {f : Frame} {w : Window} {s : State} (hw : s.windowOf f.address = some w)
    (hslot : some w.frameSlot = s.csc.slotNumber) (u : Upstream) : matchFrame f u s = captureStray .early f s := by
  rw [matchFrame, hw]
  exact if_pos hslot

theorem matchFrame_kind {f : Frame} {w : Window} {u : Upstream} {s : State} (hw : s.windowOf f.address = some w)
    (hslot : some w.frameSlot ≠ s.csc.slotNumber) (hkind : kindsMatch u w.kind = false) :
    matchFrame f u s = captureStray .kind f s := by
  rw [matchFrame, hw]
  exact (if_neg hslot).trans (if_pos (by simp [hkind]))

theorem matchFrame_answer {f : Frame} {w : Window} {u : Upstream} {s : State} (hw : s.windowOf f.address = some w)
    (hslot : some w.frameSlot ≠ s.csc.slotNumber) (hkind : kindsMatch u w.kind = true) :
    matchFrame f u s = stoppingEnd (takeAnswer w u s) := by
  rw [matchFrame, hw]
  exact (if_neg hslot).trans (if_neg (by simp [hkind]))

theorem judgeFrame_of_stray {f : Frame} {c : StrayCause} {s : State} (h : IsStray f s c) :
    judgeFrame f s = captureStray c f s := by
  cases c with
  | foreign =>
    obtain ⟨hack, hstatus⟩ := h
    rw [judgeFrame, frameForm_foreign hack hstatus]
  | form =>
    obtain ⟨hkind, hack, hstatus⟩ := h
    rw [judgeFrame, frameForm_malformed hkind hack hstatus]
  | noWindow =>
    obtain ⟨hform, hnone⟩ := h
    obtain ⟨u, hu⟩ := frameForm_wellFormed hform
    rw [judgeFrame_of_form hu, matchFrame, windowOf_eq_none hnone]
  | early =>
    obtain ⟨hform, w, hw, hslot⟩ := h
    obtain ⟨u, hu⟩ := frameForm_wellFormed hform
    rw [judgeFrame_of_form hu, matchFrame_early hw hslot]
  | kind =>
    obtain ⟨w, hw, hslot, hkinds⟩ := h
    rcases hkinds with ⟨hack, hkind⟩ | ⟨hstatus, hkind⟩
    · obtain ⟨p, hp⟩ := frameForm_ack hack
      rw [judgeFrame_of_form hp, matchFrame_kind hw hslot (by rw [hkind]; rfl)]
    · obtain ⟨st, hst⟩ := frameForm_status hstatus
      refine (judgeFrame_of_form hst s).trans (matchFrame_kind hw hslot ?_)
      cases hw : w.kind with
      | poll => exact absurd hw hkind
      | _ => rfl

/-- Settles O55: a stray is captured while the capture is armed, and is otherwise let go. -/
theorem upstreamStrays : Obligations.UpstreamStrays := by
  unfold Obligations.UpstreamStrays
  refine ⟨fun bytes s h => exec_upstreamFrame_discarded h, fun f c s hrun hlen hstray => ?_⟩
  have hexec := exec_upstreamFrame hlen hrun
  rw [judgeFrame_of_stray hstray] at hexec
  refine ⟨fun x hx => ?_, fun hnone => ?_⟩
  · have hlet : captureStray c f s = s := by rw [captureStray, hx]
    rw [hlet] at hexec
    exact happens_done (t := s) hexec (.refl _ s) trivial
  · have hcapture : captureStray c f s
        = raise .stray { s with urx := ⟨some ⟨c, f.address, f.kind, s.stamp, s.tmb.run⟩⟩ } := by
      rw [captureStray, hnone]
    rw [hcapture] at hexec
    exact happens_done hexec
      (((only_urx _ s).mono (by simp)).trans ((raise_only .stray _).mono (by simp)))
      ⟨rfl, raised_raise .stray s _ rfl⟩

end Sys2Proof.Proofs

/-! PROOFS. Purchases: PIN's judgment (R98), the urgent request (R66), and what a purchase leaves (R99, R100). -/

namespace Sys2Proof.Proofs

open Sys2Proof Sys2Proof.Machine Sys2Proof.Laws

/-! ## The judgment (R97, R98) -/

theorem judgePurchase_eq (d p : Nat) (s : State) : judgePurchase s d p = verdictOn d p s := by
  have hnormal : judgeNormal s d p =
      if s.onSale p = false then .denied
      else if (s.drop d).service ≠ .active then .denied
      else if p ∈ (s.drop d).events then .repeated
      else if 4 ≤ (s.drop d).events.length then .denied
      else if 64 ≤ s.aen.queue.length ∧ (s.drop d).link ≠ some .queued then .deferred
      else .taken := by simp [judgeNormal]
  unfold judgePurchase State.effectiveMode verdictOn
  cases hmode : s.pin.mode with
  | refuse => rfl
  | defer => simp
  | normal =>
    by_cases hroom : 4096 - s.bjn.held.length ≤ 256
    · have hfree : ¬reserve < s.free := Nat.not_lt.mpr hroom
      simp [hroom, hfree]
    · have hfree : reserve < s.free := Nat.not_le.mp hroom
      simp only [hfree, if_true, hnormal, hroom, or_false, reduceCtorEq, if_false]
      rfl

theorem verdictOn_taken {d p : Nat} {s : State} (h : verdictOn d p s = .taken) :
    ¬4096 - s.bjn.held.length ≤ 256 ∧ (s.aen.queue.length < 64 ∨ (s.drop d).link = some .queued) := by
  unfold verdictOn at h
  dsimp only at h
  split_ifs at h with hrefuse hdefer hsale hactive hlisted hfull hplace
  exact ⟨fun hroom => hdefer (.inr hroom), by
    by_cases hlink : (s.drop d).link = some .queued
    · exact .inr hlink
    · exact .inl (Nat.not_le.mp fun hle => hplace ⟨hle, hlink⟩)⟩

/-! ## The urgent request (R66) -/

theorem promoteEntry_eq (d : Nat) (q : List QEntry) : promoteEntry d q = urgentlyPlaced d q := rfl

theorem request_purchase {d : Nat} {s : State} (h : s.aen.queue.length < 64 ∨ (s.drop d).link = some .queued) :
    ((request .purchase true d s).drop d, (request .purchase true d s).aen.queue)
      = urgentlyRequested d (s.drop d) s.aen.queue := by
  unfold request queueRequest urgentlyRequested
  cases hlink : (s.drop d).link with
  | none => simp [hlink]
  | some l =>
    have hfree (hl : l ≠ .queued) : s.aen.queue.length < QClass.limit .purchase :=
      h.resolve_right (by simpa [hlink] using hl)
    cases l with
    | queued => simp [hlink, promoteEntry_eq]
    | awaiting => simp [hlink]
    | parked => simp [hlink]
    | settled => cases hout : (s.drop d).outage <;> simp [hlink, hout, hfree, urgentlyRequested.ifFree, placeEntry]
    | unconfirmed => cases hout : (s.drop d).outage <;> simp [hlink, hout, hfree, urgentlyRequested.ifFree, placeEntry]

/-- What a purchase that is not TAKEN asks for. -/
def askedFor (d : Nat) (s : State) : Drop × List QEntry :=
  if s.aen.queue.length < 64 ∨ (s.drop d).link = some .queued then urgentlyRequested d (s.drop d) s.aen.queue
  else (s.drop d, s.aen.queue)

theorem purchaseRequest_only (d : Nat) (s : State) : OnlyChanges [.dtb, .queue] s (purchaseRequest d s) :=
  ((request_only .purchase true d s).mono (by simp)).ite (.refl _ s)

theorem purchaseRequest_spec (d : Nat) (s : State) : OnlyDrop d s (purchaseRequest d s)
    ∧ ((purchaseRequest d s).drop d, (purchaseRequest d s).aen.queue) = askedFor d s := by
  unfold purchaseRequest askedFor
  split
  · next hasks => exact ⟨queueRequest_onlyDrop .purchase true d s, request_purchase hasks⟩
  · exact ⟨onlyDrop_refl d s, rfl⟩

/-! ## A purchase that is TAKEN (R99) -/

section
variable (d p : Nat) (s : State)

/-- The drop has the event in its list, and the purchase is journalled. -/
def purchaseRecorded : State :=
  writeRecord (.purchase d (s.drop d).account p (s.priceOf p))
    (s.setDrop d { s.drop d with events := (s.drop d).events ++ [p] })

theorem takePurchase_eq : takePurchase d p s = raise .purchase (request .purchase true d (purchaseRecorded d p s)) := rfl

theorem purchaseRecorded_drop : (purchaseRecorded d p s).drop d = { s.drop d with events := (s.drop d).events ++ [p] } := by
  simp [purchaseRecorded]

theorem purchaseRecorded_only : OnlyChanges [.dtb, .attn, .bjn] s (purchaseRecorded d p s) :=
  ((setDrop_only d _ s).mono (by simp)).trans ((writeRecord_only _ _).mono (by simp))

theorem purchaseRecorded_wrote :
    Wrote [.purchase d (s.drop d).account p (s.priceOf p)] s (purchaseRecorded d p s) :=
  writeRecord_wrote (s := s.setDrop d _) _

theorem takePurchase_only : OnlyChanges [.dtb, .queue, .attn, .bjn] s (takePurchase d p s) := by
  have hrecorded := (purchaseRecorded_only d p s).mono (qs := [.dtb, .queue, .attn, .bjn]) (by simp)
  have hasked := (request_only .purchase true d (purchaseRecorded d p s)).mono (qs := [.dtb, .queue, .attn, .bjn])
    (by simp)
  exact (hrecorded.trans hasked).trans ((raise_only .purchase _).mono (by simp))

theorem takePurchase_bjn : (takePurchase d p s).bjn = (purchaseRecorded d p s).bjn :=
  request_only .purchase true d (purchaseRecorded d p s) .bjn (by simp)

theorem takePurchase_onlyDrop : OnlyDrop d s (takePurchase d p s) :=
  onlyDrop_trans (onlyDrop_trans (onlyDrop_of_setDrop d _ s) (onlyDrop_of_dtb (writeRecord_dtb _ _)))
    (queueRequest_onlyDrop .purchase true d _)

theorem takePurchase_asked (h : s.aen.queue.length < 64 ∨ (s.drop d).link = some .queued) :
    ((takePurchase d p s).drop d, (takePurchase d p s).aen.queue)
      = urgentlyRequested d { s.drop d with events := (s.drop d).events ++ [p] } s.aen.queue := by
  have hqueue : (purchaseRecorded d p s).aen.queue = s.aen.queue := purchaseRecorded_only d p s .queue (by simp)
  have hasked := request_purchase (d := d) (s := purchaseRecorded d p s)
    (by rw [hqueue, purchaseRecorded_drop]; exact h)
  rw [hqueue, purchaseRecorded_drop] at hasked
  exact hasked

theorem takePurchase_raised (h : ¬4096 - s.bjn.held.length ≤ 256) :
    Raised (if 4096 - (s.bjn.held.length + 1) ≤ s.params.journalWatermark then [.purchase, .journal]
      else [.purchase]) s (takePurchase d p s) := by
  obtain ⟨hbjn, hother, hjournal, hfull⟩ := purchaseRecorded_wrote d p s
  have hlen : (purchaseRecorded d p s).bjn.held.length = s.bjn.held.length + 1 := by
    rw [hbjn]
    simp [journalWith]
  have hofp : ∀ k, (request .purchase true d (purchaseRecorded d p s)).attn k = (purchaseRecorded d p s).attn k :=
    attn_congr (request_only .purchase true d (purchaseRecorded d p s) .attn (by simp))
  rw [hlen] at hjournal hfull
  rw [if_neg (by omega)] at hfull
  intro k
  rw [takePurchase_eq, attn_raise, hofp, hofp]
  by_cases hmark : 4096 - (s.bjn.held.length + 1) ≤ s.params.journalWatermark
  · rw [if_pos hmark] at hjournal ⊢
    cases k with
    | journal => simp [hjournal]
    | jfull => simp [hfull]
    | _ => simp [hother]
  · rw [if_neg hmark] at hjournal ⊢
    cases k with
    | journal => simp [hjournal]
    | jfull => simp [hfull]
    | _ => simp [hother]

end

/-- What a purchase leaves, by PIN's judgment (R98 to R100). -/
theorem purchase_judged (d p : Nat) (s : State) (hp : p ≠ 0) : purchase d p s =
    match verdictOn d p s with
    | .taken => takePurchase d p s
    | .repeated => purchaseRequest d s
    | .denied => raise .purchase (purchaseRequest d s)
    | .deferred => s := by
  rw [purchase, if_neg hp, judgePurchase_eq] <;> rfl

end Sys2Proof.Proofs

/-! PROOFS. The ACK of an AUTH or a REFRESH window (R49, R78, R92, R94), with its purchase (R98 to R100). -/

namespace Sys2Proof.Proofs

open Sys2Proof Sys2Proof.Machine Sys2Proof.Laws

/-! ## The answer closes its window -/

/-- The window that is answered has closed, and the sweeper has taken its drop's record from the outstanding list when
it is a REFRESH window (R49, R94). -/
def windowAnswered (w : Window) (s : State) : State :=
  { s with
    csc := { s.csc with windows := s.csc.windows.filter fun x => x.address != w.address }
    rsw := if w.kind = .refresh then
        { s.rsw with outstanding := s.rsw.outstanding.filter fun o => o.drop != w.owner }
      else s.rsw }

theorem windowAnswered_only (w : Window) (s : State) : OnlyChanges [.csc, .rsw] s (windowAnswered w s) := fun p hp => by
  cases p with
  | csc => simp at hp
  | rsw => simp at hp
  | _ => rfl

theorem windowClosed_of {w : Window} {s u : State} (hcsc : u.csc = (windowAnswered w s).csc) (hsst : u.sst = s.sst) :
    WindowClosed w s (stoppingEnd u).report := by
  have hends : (stoppingEnd u).csc = u.csc :=
    csc_of_agree (stoppingEnd_only u .csc (by simp)) (stoppingEnd_only u .marks (by simp))
  refine ⟨?_, (sst_stoppingEnd u).trans ?_⟩
  · rw [show (stoppingEnd u).report.csc = { (stoppingEnd u).csc with marks := (stoppingEnd u).report.csc.marks } from rfl,
      hends, hcsc]
    rfl
  · rw [hsst, hcsc]
    rfl

/-! ## The link effect (R78, R92) -/

/-- The attention an ACK raises when its request finds no place. -/
def ackAttention (w : Window) : Kind := if w.kind = .auth then .auth else .refresh

/-- The state in which PIN takes the purchase of an ACK: its window closed, and its link effect done. -/
def ackTaken (w : Window) (s : State) : State :=
  if (s.drop w.owner).service = .vacant then windowAnswered w s
  else linkAck (ackAttention w) w.owner (windowAnswered w s)

theorem takeAnswer_ack {w : Window} (h : w.kind ≠ .poll) (p : Nat) (s : State) :
    takeAnswer w (.ack p) s = purchase w.owner p (ackTaken w s) := by
  unfold takeAnswer ackTaken ackAttention windowAnswered
  cases hkind : w.kind with
  | poll => exact absurd hkind h
  | auth => rfl
  | refresh => rfl

theorem exec_ack {w : Window} {s : State} (h : AwaitsAnswer w s) (hkind : w.kind ≠ .poll) (p : Byte) :
    exec (.upstreamFrame (Frame.bytes ⟨0x81#8, w.address, [p]⟩)) s
      = done (stoppingEnd (purchase w.owner p.toNat (ackTaken w s))) := by
  obtain ⟨hrun, hwindow, hslot⟩ := h
  have hload : s.sst.runState ≠ .loading := by rcases hrun with h | h <;> simp [h]
  have hform : frameForm ⟨0x81#8, w.address, [p]⟩ = .ok (.ack p.toNat) := rfl
  have hmatch : kindsMatch (.ack p.toNat) w.kind = true := by
    cases hk : w.kind with
    | poll => exact absurd hk hkind
    | _ => rfl
  rw [exec_upstreamFrame (f := ⟨0x81#8, w.address, [p]⟩) (by simp) hload, judgeFrame_of_form hform,
    matchFrame_answer hwindow hslot hmatch, takeAnswer_ack hkind]

theorem exec_ack_without_purchase {w : Window} {s : State} (h : AwaitsAnswer w s) (hkind : w.kind ≠ .poll) :
    exec (.upstreamFrame (Frame.bytes ⟨0x81#8, w.address, [0#8]⟩)) s = done (stoppingEnd (ackTaken w s)) := by
  have hnone : purchase w.owner (0#8).toNat (ackTaken w s) = ackTaken w s := if_pos rfl
  rw [exec_ack h hkind, hnone]

theorem confirmed_eq (s : State) (r : Drop) :
    { r.confirmed s.stamp with link := some .settled, stale := false } = settledDrop s r := by
  unfold Drop.confirmed settledDrop State.stamp
  cases s.tmb.timeSet <;> rfl

theorem linkAck_eq (k : Kind) (d : Nat) (s : State) : linkAck k d s =
    if (s.drop d).stale then requestAgain .requeue k d (s.setDrop d (settledDrop s (s.drop d)))
    else if (s.drop d).service = .closing then vacate d (s.setDrop d (settledDrop s (s.drop d)))
    else s.setDrop d (settledDrop s (s.drop d)) := by
  rw [linkAck, confirmed_eq]

theorem linkAck_only (k : Kind) (d : Nat) (s : State) : OnlyChanges [.queue, .dtb, .olz, .attn] s (linkAck k d s) := by
  have hset := (setDrop_only d (settledDrop s (s.drop d)) s).mono (qs := [.queue, .dtb, .olz, .attn]) (by simp)
  rw [linkAck_eq]
  exact .ite (hset.trans (requestAgain_only _ _ d _)) (.ite (hset.trans ((vacate_only d _).mono (by simp))) hset)

theorem ackTaken_only (w : Window) (s : State) :
    OnlyChanges [.queue, .dtb, .olz, .attn] (windowAnswered w s) (ackTaken w s) :=
  .ite (.refl _ _) (linkAck_only _ _ _)

theorem ackTaken_csc (w : Window) (s : State) : (ackTaken w s).csc = (windowAnswered w s).csc :=
  csc_of_agree (ackTaken_only w s .csc (by simp)) (ackTaken_only w s .marks (by simp))

theorem ackTaken_sst (w : Window) (s : State) : (ackTaken w s).sst = s.sst := ackTaken_only w s .sst (by simp)

theorem ackTaken_rsw (w : Window) (s : State) : (ackTaken w s).rsw = (windowAnswered w s).rsw :=
  ackTaken_only w s .rsw (by simp)

/-- What the ACK without a purchase leaves. -/
def ackFinished (w : Window) (s : State) : State := (stoppingEnd (ackTaken w s)).report

theorem ackFinished_only (w : Window) (s : State) : OnlyChanges [.marks, .sst] (ackTaken w s) (ackFinished w s) :=
  ((stoppingEnd_only _).mono (by simp)).trans ((report_only _).mono (by simp))

theorem ackFinished_rsw (w : Window) (s : State) : (ackFinished w s).rsw = (windowAnswered w s).rsw :=
  Eq.trans (ackFinished_only w s .rsw (by simp)) (ackTaken_rsw w s)

theorem ackFinished_drop (w : Window) (s : State) (d : Nat) : (ackFinished w s).drop d = (ackTaken w s).drop d :=
  drop_congr (ackFinished_only w s .dtb (by simp)) d

theorem ackFinished_queue (w : Window) (s : State) : (ackFinished w s).aen.queue = (ackTaken w s).aen.queue :=
  ackFinished_only w s .queue (by simp)

theorem ackFinished_onlyDrop {w : Window} {d : Nat} {s : State} (h : OnlyDrop d s (ackTaken w s)) :
    OnlyDrop d s (ackFinished w s) :=
  onlyDrop_trans h (onlyDrop_of_dtb (ackFinished_only w s .dtb (by simp)))

theorem ackFinished_raised {ks : List Kind} {w : Window} {s : State} (h : Raised ks s (ackTaken w s)) :
    Raised ks s (ackFinished w s) := fun k =>
  (attn_congr (ackFinished_only w s .attn (by simp)) k).trans (h k)

/-- The ACK without a purchase is carried out. -/
theorem happens_ack {w : Window} {s : State} {ps : List Part} {q : State → Prop} (h : AwaitsAnswer w s)
    (hkind : w.kind ≠ .poll) (honly : OnlyChanges ps s (ackTaken w s)) (hsst : Part.sst ∈ ps)
    (hq : WindowClosed w s (ackFinished w s) → q (ackFinished w s)) :
    Happens (.upstreamFrame (Frame.bytes ⟨0x81#8, w.address, [0#8]⟩)) s ps q :=
  happens_done (exec_ack_without_purchase h hkind)
    (honly.trans ((stoppingEnd_only _).mono (List.cons_subset.mpr ⟨hsst, List.nil_subset _⟩)))
    (hq (windowClosed_of (ackTaken_csc w s) (ackTaken_sst w s)))

/-! ## An ACK of a drop that is not stale -/

section
variable {k : Kind} {d : Nat} {s : State}

theorem linkAck_current (hstale : (s.drop d).stale = false) :
    OnlyChanges [.queue, .dtb, .olz] s (linkAck k d s) ∧ OnlyDrop d s (linkAck k d s)
      ∧ ((s.drop d).service ≠ .closing → linkAck k d s = s.setDrop d (settledDrop s (s.drop d)))
      ∧ ((s.drop d).service = .closing → (linkAck k d s).drop d = vacatedRecord (s.drop d)) := by
  rw [linkAck_eq, hstale, if_neg Bool.false_ne_true]
  have hset := setDrop_only d (settledDrop s (s.drop d)) s
  by_cases hclosing : (s.drop d).service = .closing
  · obtain ⟨hdrop, hvacated, -, -, -⟩ := vacate_spec d (s.setDrop d (settledDrop s (s.drop d)))
    rw [if_pos hclosing]
    refine ⟨(hset.mono (by simp)).trans (vacate_only d _), onlyDrop_setDrop hdrop, fun h => absurd hclosing h, fun _ => ?_⟩
    rw [hvacated, drop_setDrop, if_pos rfl]
    rfl
  · rw [if_neg hclosing]
    exact ⟨hset.mono (by simp), onlyDrop_of_setDrop d _ s, fun _ => rfl, fun h => absurd h hclosing⟩

/-! ## An ACK of a stale drop -/

theorem linkAck_stale (hstale : (s.drop d).stale = true) :
    let r := s.drop d
    let x := settledDrop s r
    let t := linkAck k d s
    OnlyChanges [.dtb, .queue, .attn] s t ∧ OnlyDrop d s t
      ∧ (r.outage ≠ none → t.drop d = { x with link := some .parked } ∧ t.aen.queue = s.aen.queue ∧ Raised [] s t)
      ∧ (r.outage = none → s.aen.queue.length < 64 → t.drop d = { x with link := some .queued }
          ∧ t.aen.queue = s.aen.queue ++ [⟨d, false⟩] ∧ Raised [] s t)
      ∧ (r.outage = none → 64 ≤ s.aen.queue.length → t.aen.queue = s.aen.queue
          ∧ t.drop d = (if r.service = .closing then vacatedRecord r else { x with link := some .unconfirmed })
          ∧ Raised (if r.service = .closing then [.auth] else [k]) s t) := by
  intro r x t
  have ht : t = requestAgain .requeue k d (s.setDrop d x) := by
    change linkAck k d s = _
    rw [linkAck_eq, hstale, if_pos rfl]
  have hx : (s.setDrop d x).drop d = x := by rw [drop_setDrop, if_pos rfl]
  have hlink : ((s.setDrop d x).drop d).link = some .settled := by rw [hx]; rfl
  have honly := (setDrop_only d x s).mono (qs := [.dtb, .queue, .attn]) (by simp)
  obtain ⟨hdrop, hparked, hqueued, hfull⟩ :=
    requestAgain_spec .requeue k d (s.setDrop d x) (.inl rfl) (.inl hlink)
  have hleft := leaveUnconfirmed_spec k d (s.setDrop d x) (by rw [hlink]; simp)
  rw [hx] at hparked hqueued hfull hleft
  obtain ⟨-, hleftQueue, hleftRaised, -, hleftDrop⟩ := hleft
  refine ⟨?_, onlyDrop_setDrop (ht ▸ hdrop), fun hout => ?_, fun hout hroom => ?_, fun hout hfullQueue => ?_⟩
  · rw [ht]
    by_cases hout : r.outage = none
    · exact honly.trans (requestAgain_only_in_no_outage _ k d _ (.inl rfl) (.inl hlink) (by rw [hx]; exact hout))
    · exact honly.trans (only_without_olz (requestAgain_only _ k d _) (hparked hout).2.2.1)
  · obtain ⟨haen, hofp, -, hdropd⟩ := hparked hout
    rw [ht]
    exact ⟨hdropd, congrArg Aen.queue haen, raised_of_eq hofp⟩
  · obtain ⟨hqueue, hofp, -, hdropd⟩ := hqueued hout hroom
    rw [ht]
    exact ⟨hdropd, hqueue, raised_of_eq hofp⟩
  · have hunconfirmed := ht.trans (hfull hout hfullQueue)
    rw [hunconfirmed]
    exact ⟨congrArg Aen.queue hleftQueue, hleftDrop, hleftRaised⟩

end

end Sys2Proof.Proofs

/-! PROOFS. What an ACK does, in the cases of O56: without a purchase, and with one. -/

namespace Sys2Proof.Proofs

open Sys2Proof Sys2Proof.Machine Sys2Proof.Laws

/-! ## Without a purchase -/

section
variable {w : Window} {s : State} (h : AwaitsAnswer w s) (hkind : w.kind ≠ .poll)
  (hservice : (s.drop w.owner).service ≠ .vacant)

include hservice

theorem ackTaken_of_service : ackTaken w s = linkAck (ackAttention w) w.owner (windowAnswered w s) := if_neg hservice

include h hkind

theorem happens_ack_current (hstale : (s.drop w.owner).stale = false) :
    let d := w.owner
    let r := s.drop d
    Happens (.upstreamFrame (Frame.bytes ⟨0x81#8, w.address, [0#8]⟩)) s [.csc, .sst, .dtb, .rsw, .queue, .olz] fun t =>
      WindowClosed w s t ∧ OnlyDrop d s t
        ∧ t.rsw = (if w.kind = .refresh then
            { s.rsw with outstanding := s.rsw.outstanding.filter fun o => o.drop != d } else s.rsw)
        ∧ (r.service ≠ .closing → t.drop d = settledDrop s r ∧ t.aen.queue = s.aen.queue ∧ t.olz = s.olz)
        ∧ (r.service = .closing → t.drop d =
            { Drop.blank with account := if 0 < r.pending then r.account else none, pending := r.pending }) := by
  intro d r
  obtain ⟨honly, hdrop, hset, hvacated⟩ := linkAck_current (k := ackAttention w) (s := windowAnswered w s) hstale
  rw [← ackTaken_of_service hservice] at honly hdrop hset hvacated
  refine happens_ack h hkind (((windowAnswered_only w s).mono (by simp)).trans (honly.mono (by simp))) (by simp)
    fun hclosed => ⟨hclosed, ackFinished_onlyDrop hdrop, ackFinished_rsw w s, fun hopen => ?_, fun hclosing => ?_⟩
  · have hleft := hset hopen
    refine ⟨?_, ?_, ?_⟩
    · rw [ackFinished_drop, hleft, drop_setDrop, if_pos rfl]
      rfl
    · rw [ackFinished_queue, hleft]
      rfl
    · exact Eq.trans (ackFinished_only w s .olz (by simp)) (congrArg State.olz hleft :)
  · rw [ackFinished_drop]
    exact hvacated hclosing

theorem happens_ack_stale (hstale : (s.drop w.owner).stale = true) :
    let d := w.owner
    let r := s.drop d
    let x := settledDrop s r
    Happens (.upstreamFrame (Frame.bytes ⟨0x81#8, w.address, [0#8]⟩)) s [.csc, .sst, .dtb, .rsw, .queue, .attn]
      fun t =>
        WindowClosed w s t ∧ OnlyDrop d s t
          ∧ t.rsw = (if w.kind = .refresh then
              { s.rsw with outstanding := s.rsw.outstanding.filter fun o => o.drop != d } else s.rsw)
          ∧ (r.outage ≠ none → t.drop d = { x with link := some .parked } ∧ t.aen.queue = s.aen.queue
              ∧ Raised [] s t)
          ∧ (r.outage = none → s.aen.queue.length < 64 → t.drop d = { x with link := some .queued }
              ∧ t.aen.queue = s.aen.queue ++ [⟨d, false⟩] ∧ Raised [] s t)
          ∧ (r.outage = none → 64 ≤ s.aen.queue.length → t.aen.queue = s.aen.queue
              ∧ t.drop d = (if r.service = .closing then vacatedRecord r else { x with link := some .unconfirmed })
              ∧ Raised (if r.service = .closing ∨ w.kind = .auth then [.auth] else [.refresh]) s t) := by
  intro d r x
  obtain ⟨honly, hdrop, hparked, hqueued, hfull⟩ := linkAck_stale (k := ackAttention w) (s := windowAnswered w s) hstale
  rw [← ackTaken_of_service hservice] at honly hdrop hparked hqueued hfull
  refine happens_ack h hkind (((windowAnswered_only w s).mono (by simp)).trans (honly.mono (by simp))) (by simp)
    fun hclosed => ⟨hclosed, ackFinished_onlyDrop hdrop, ackFinished_rsw w s, fun hout => ?_, fun hout hroom => ?_,
      fun hout hplace => ?_⟩
  · obtain ⟨hd, hq, hraised⟩ := hparked hout
    rw [ackFinished_drop, ackFinished_queue]
    exact ⟨hd, hq, ackFinished_raised hraised⟩
  · obtain ⟨hd, hq, hraised⟩ := hqueued hout hroom
    rw [ackFinished_drop, ackFinished_queue]
    exact ⟨hd, hq, ackFinished_raised hraised⟩
  · obtain ⟨hq, hd, hraised⟩ := hfull hout hplace
    rw [ackFinished_drop, ackFinished_queue]
    refine ⟨hq, hd, ackFinished_raised (s := s) ?_⟩
    have hkinds : (if r.service = .closing ∨ w.kind = .auth then [Kind.auth] else [.refresh])
        = if r.service = .closing then [.auth] else [ackAttention w] := by
      unfold ackAttention
      by_cases hclosing : r.service = .closing <;> by_cases hauth : w.kind = .auth <;> simp [hclosing, hauth]
    rw [hkinds]
    exact hraised

end

/-! ## A purchase does not see the windows or the run state -/

/-- The state with another slot in progress and another run state. -/
def withSlot (c : Csc) (x : Sst) (s : State) : State := { s with csc := c, sst := x }

section
variable (c : Csc) (x : Sst) (s : State)

theorem writeRecord_withSlot (b : JBody) : writeRecord b (withSlot c x s) = withSlot c x (writeRecord b s) := by
  have hraise (on : Bool) (k : Kind) (t : State) : raiseIf on k (withSlot c x t) = withSlot c x (raiseIf on k t) := by
    cases on <;> rfl
  unfold writeRecord
  rw [show appendRecord b (withSlot c x s) = withSlot c x (appendRecord b s) from rfl]
  dsimp only
  rw [show (withSlot c x (appendRecord b s)).free = (appendRecord b s).free from rfl,
    show (withSlot c x (appendRecord b s)).params = (appendRecord b s).params from rfl, hraise, hraise]

theorem request_withSlot (q : QClass) (urgent : Bool) (d : Nat) :
    request q urgent d (withSlot c x s) = withSlot c x (request q urgent d s) := by
  unfold request queueRequest
  rw [show (withSlot c x s).drop d = s.drop d from rfl, show (withSlot c x s).aen = s.aen from rfl]
  dsimp only
  split
  · rfl
  · cases urgent <;> rfl
  · rfl
  · rfl
  · split_ifs
    all_goals rfl

theorem purchaseRequest_withSlot (d : Nat) :
    purchaseRequest d (withSlot c x s) = withSlot c x (purchaseRequest d s) := by
  unfold purchaseRequest
  rw [request_withSlot]
  exact (apply_ite (withSlot c x) _ _ _).symm

theorem purchase_withSlot (d p : Nat) : purchase d p (withSlot c x s) = withSlot c x (purchase d p s) := by
  by_cases hp : p = 0
  · rw [purchase, if_pos hp, purchase, if_pos hp]
  · rw [purchase_judged _ _ _ hp, purchase_judged _ _ _ hp,
      show verdictOn d p (withSlot c x s) = verdictOn d p s from rfl]
    cases verdictOn d p s with
    | deferred => rfl
    | repeated => exact purchaseRequest_withSlot c x s d
    | denied => exact congrArg (raise .purchase) (purchaseRequest_withSlot c x s d)
    | taken =>
      have hrecorded : purchaseRecorded d p (withSlot c x s) = withSlot c x (purchaseRecorded d p s) :=
        writeRecord_withSlot c x (s.setDrop d { s.drop d with events := (s.drop d).events ++ [p] })
          (.purchase d (s.drop d).account p (s.priceOf p))
      change takePurchase d p (withSlot c x s) = withSlot c x (takePurchase d p s)
      rw [takePurchase_eq, takePurchase_eq, hrecorded, request_withSlot]
      rfl

end

/-- The status of the part once a part in STOPPING has closed its last window (R53). -/
def endedStatus (s : State) : Sst :=
  if s.sst.runState = .stopping ∧ s.csc.windows = [] then { s.sst with runState := .standby } else s.sst

theorem stoppingEnd_eq (s : State) : stoppingEnd s = withSlot s.csc (endedStatus s) s := by
  unfold stoppingEnd endedStatus
  split <;> rfl

theorem purchase_csc (d p : Nat) (s : State) : (purchase d p s).csc = s.csc :=
  csc_of_agree (purchase_only d p s .csc (by simp)) (purchase_only d p s .marks (by simp))

/-- A purchase may be taken before or after what an ACK does otherwise is complete. -/
theorem purchase_ackFinished (w : Window) (d p : Nat) (s : State) :
    OnlyChanges [.marks] (purchase d p (ackFinished w s)) (stoppingEnd (purchase d p (ackTaken w s))).report := by
  have hfinished : ackFinished w s =
      withSlot { (ackTaken w s).csc with marks := (ackFinished w s).csc.marks } (endedStatus (ackTaken w s))
        (ackTaken w s) := by
    rw [ackFinished, stoppingEnd_eq]
    rfl
  have hcsc := purchase_csc d p (ackTaken w s)
  have hended : endedStatus (purchase d p (ackTaken w s)) = endedStatus (ackTaken w s) := by
    have hsst : (purchase d p (ackTaken w s)).sst = (ackTaken w s).sst := purchase_only d p _ .sst (by simp)
    rw [endedStatus, endedStatus, hcsc, hsst]
  rw [hfinished, purchase_withSlot, stoppingEnd_eq, hended, hcsc]
  intro p hp
  cases p with
  | marks => simp at hp
  | _ => rfl

/-! ## An ACK with a purchase that is TAKEN -/

theorem windowAnswered_only_of_auth {w : Window} (hauth : w.kind = .auth) (s : State) :
    OnlyChanges [.csc] s (windowAnswered w s) := fun p hp => by
  cases p with
  | csc => simp at hp
  | rsw => exact if_neg (by rw [hauth]; exact WindowKind.noConfusion)
  | _ => rfl

theorem verdictOn_eq_taken {d p k : Nat} {e : Event} {s : State} (hmode : s.pin.mode = .normal)
    (hheld : s.bjn.held.length < 3840) (hevent : s.findEvent p = some (k, e))
    (hsale : e.state = .ordering ∨ e.state = .showing) (hactive : (s.drop d).service = .active)
    (hlisted : p ∉ (s.drop d).events) (hfew : (s.drop d).events.length < 4) (hroom : s.aen.queue.length < 64) :
    verdictOn d p s = .taken := by
  have hfree : ¬4096 - s.bjn.held.length ≤ 256 := by omega
  have honSale : (e.state == .ordering || e.state == .showing) = true := by rcases hsale with h | h <;> simp [h]
  simp [verdictOn, hmode, hfree, hevent, honSale, hactive, hlisted, Nat.not_le.mpr hfew, Nat.not_le.mpr hroom]

theorem urgentlyRequested_settled {d : Nat} {r : Drop} {q : List QEntry} (hlink : r.link = some .settled)
    (hout : r.outage = none) : urgentlyRequested d r q = ({ r with link := some .queued, attempts := 0 },
      q.filter (fun e => e.urgent) ++ [⟨d, true⟩] ++ q.filter fun e => !e.urgent) := by
  simp [urgentlyRequested, urgentlyRequested.ifFree, hlink, hout]

theorem priceOf_of_event {s : State} {p k : Nat} {e : Event} (h : s.findEvent p = some (k, e)) :
    s.priceOf p = e.cfg.price := by
  rw [State.priceOf, h, Option.map_some, Option.getD_some]

theorem happens_ack_taken {w : Window} {p : Byte} {k : Nat} {e : Event} {s : State} (h : AwaitsAnswer w s)
    (hauth : w.kind = .auth) (hp : p ≠ 0#8) :
    let d := w.owner
    let r := s.drop d
    r.service = .active → r.stale = false → r.outage = none → s.pin.mode = .normal → s.bjn.held.length < 3840 →
    s.findEvent p.toNat = some (k, e) → (e.state = .ordering ∨ e.state = .showing) → p.toNat ∉ r.events →
    r.events.length < 4 → s.aen.queue.length < 64 →
    Happens (.upstreamFrame (Frame.bytes ⟨0x81#8, w.address, [p]⟩)) s [.csc, .sst, .dtb, .queue, .bjn, .attn]
      fun t =>
        WindowClosed w s t ∧ OnlyDrop d s t
          ∧ t.drop d = { settledDrop s r with link := some .queued, events := r.events ++ [p.toNat] }
          ∧ t.aen.queue = s.aen.queue.filter (fun q => q.urgent) ++ [⟨d, true⟩]
              ++ s.aen.queue.filter (fun q => !q.urgent)
          ∧ t.bjn = { s.bjn with
              held := s.bjn.held ++ [⟨s.bjn.nextSeq, s.tmb.station, s.tmb.uncertain,
                .purchase d r.account p.toNat e.cfg.price⟩]
              nextSeq := s.bjn.nextSeq + 1 }
          ∧ Raised (if 4096 - (s.bjn.held.length + 1) ≤ s.params.journalWatermark then [.purchase, .journal]
              else [.purchase]) s t := by
  intro d r hactive hstale hout hmode hheld hevent hsale hlisted hfew hroom
  have hkind : w.kind ≠ .poll := by rw [hauth]; exact WindowKind.noConfusion
  have hack : ackTaken w s = (windowAnswered w s).setDrop d (settledDrop s r) := by
    obtain ⟨-, -, hset, -⟩ := linkAck_current (k := ackAttention w) (s := windowAnswered w s) hstale
    exact (ackTaken_of_service (hactive ▸ by decide)).trans (hset (hactive ▸ by decide))
  have hdrop : (ackTaken w s).drop d = settledDrop s r := by rw [hack, drop_setDrop, if_pos rfl]
  have honly : OnlyChanges [.csc, .dtb] s (ackTaken w s) := by
    rw [hack]
    exact ((windowAnswered_only_of_auth hauth s).mono (by simp)).trans ((setDrop_only d _ _).mono (by simp))
  have hother : OnlyDrop d s (ackTaken w s) := by
    rw [hack]
    exact onlyDrop_of_setDrop d _ (windowAnswered w s)
  have hqueue : (ackTaken w s).aen.queue = s.aen.queue := honly .queue (by simp)
  have hbjn : (ackTaken w s).bjn = s.bjn := honly .bjn (by simp)
  have htmb : (ackTaken w s).tmb = s.tmb := honly .tmb (by simp)
  have hparams : (ackTaken w s).params = s.params := honly .params (by simp)
  have hofp : (ackTaken w s).ofp.attn = s.ofp.attn := honly .attn (by simp)
  have hlur : (ackTaken w s).findEvent p.toNat = s.findEvent p.toNat := by rw [hack]; rfl
  have hcsc := ackTaken_csc w s
  have hsst := ackTaken_sst w s
  have hverdict : verdictOn d p.toNat (ackTaken w s) = .taken :=
    verdictOn_eq_taken (k := k) (e := e) (by rw [hack]; exact hmode) (by rw [hbjn]; exact hheld) (hlur.trans hevent)
      hsale (by rw [hdrop]; exact hactive) (by rw [hdrop]; exact hlisted) (by rw [hdrop]; exact hfew)
      (by rw [hqueue]; exact hroom)
  have hid : p.toNat ≠ 0 := fun h0 => hp (BitVec.eq_of_toNat_eq h0)
  have hpurchase : purchase d p.toNat (ackTaken w s) = takePurchase d p.toNat (ackTaken w s) := by
    rw [purchase_judged _ _ _ hid, hverdict]
  have hexec := exec_ack h hkind p
  rw [hpurchase] at hexec
  generalize ackTaken w s = m at *
  have hasked := takePurchase_asked d p.toNat m (.inl (by rw [hqueue]; exact hroom))
  rw [hdrop, urgentlyRequested_settled
    (r := { settledDrop s r with events := (settledDrop s r).events ++ [p.toNat] }) rfl hout, hqueue, Prod.mk.injEq] at hasked
  obtain ⟨hasked, hplaced⟩ := hasked
  have hraised := takePurchase_raised d p.toNat m (by rw [hbjn]; omega)
  have hrecord : (takePurchase d p.toNat m).bjn = (appendRecord (.purchase d r.account p.toNat e.cfg.price) m).bjn := by
    rw [takePurchase_bjn, purchaseRecorded, writeRecord_bjn, priceOf_of_event (hlur.trans hevent), hdrop]
    rfl
  rw [hbjn, hparams] at hraised
  have htaken := takePurchase_only d p.toNat m
  have hlisting := onlyDrop_trans hother (takePurchase_onlyDrop d p.toNat m)
  generalize takePurchase d p.toNat m = u at *
  have hends := stoppingEnd_only u
  have hdropEnd : (stoppingEnd u).drop d = u.drop d := drop_congr (hends .dtb (by simp)) d
  have hqueueEnd : (stoppingEnd u).aen.queue = u.aen.queue := hends .queue (by simp)
  have hbjnEnd : (stoppingEnd u).bjn = u.bjn := hends .bjn (by simp)
  refine happens_done hexec (((honly.mono (by simp)).trans (htaken.mono (by simp))).trans (hends.mono (by simp)))
    ⟨windowClosed_of (w := w) ?_ ?_, ?_, ?_, ?_, ?_, ?_⟩
  · exact (csc_of_agree (htaken .csc (by simp)) (htaken .marks (by simp))).trans hcsc
  · exact Eq.trans (htaken .sst (by simp)) hsst
  · exact onlyDrop_trans hlisting (onlyDrop_of_dtb (hends .dtb (by simp)))
  · exact hdropEnd.trans hasked
  · exact hqueueEnd.trans hplaced
  · refine hbjnEnd.trans (hrecord.trans ?_)
    rw [appendRecord, hbjn, htmb]
  · intro j
    have hstays : (stoppingEnd u).attn j = u.attn j := attn_congr (hends .attn (by simp)) j
    exact hstays.trans ((hraised j).trans (by rw [attn_congr hofp]))

end Sys2Proof.Proofs

/-! PROOFS. The STATUS that answers a POLL window (R49, R113, R124), and the answers as a whole (O56). -/

namespace Sys2Proof.Proofs

open Sys2Proof Sys2Proof.Machine Sys2Proof.Laws

/-! ## The end of a poll does not see the windows -/

/-- The state with another slot in progress. -/
def withCsc (c : Csc) (s : State) : State := { s with csc := c }

theorem withCsc_only {c : Csc} {s : State} (h : c.marks = s.csc.marks) : OnlyChanges [.csc] s (withCsc c s) :=
  fun p hp => by
    cases p with
    | csc => simp at hp
    | marks => exact h
    | _ => rfl

section
variable (c : Csc) (s : State)

theorem openSplits_withCsc (o : Outage) (us : List Nat) :
    openSplits o us (withCsc c s) = (withCsc c (openSplits o us s).1, (openSplits o us s).2) := by
  induction us generalizing s with
  | nil => rfl
  | cons u us ih =>
    rw [openSplits, openSplits, show (withCsc c s).hasRoom = s.hasRoom from rfl]
    split
    · dsimp only
      rw [show (openRecord .silent true u o.openRun o.openStation (withCsc c s)).1
        = withCsc c (openRecord .silent true u o.openRun o.openStation s).1 from rfl,
        show ∀ t, setUnlogged false u (withCsc c t) = withCsc c (setUnlogged false u t) from fun _ => rfl, ih]
      rfl
    · rfl

theorem endSilent_withCsc (o : Outage) : endSilent o (withCsc c s) = withCsc c (endSilent o s) := by
  have hroots : splitRoots (withCsc c s) o.root = splitRoots s o.root := rfl
  have hclear (n : Nat) (r : CloseReason) (x : List Nat) (b : Bool) (t : State) :
    clearRecord n r x b (withCsc c t) = withCsc c (clearRecord n r x b t) := rfl
  unfold endSilent
  rw [hroots, openSplits_withCsc]
  dsimp only
  rw [hclear, hclear, ← apply_ite (withCsc c)]
  exact List.foldl_hom (withCsc c) fun _ _ => rfl

theorem unitRecovered_withCsc (u : Nat) : unitRecovered u (withCsc c s) = withCsc c (unitRecovered u s) := by
  unfold unitRecovered
  rw [show (withCsc c s).olz = s.olz from rfl]
  split
  · exact endSilent_withCsc c s _
  · rfl

theorem leaveService_withCsc (u : Nat) : leaveService u (withCsc c s) = withCsc c (leaveService u s) := by
  unfold leaveService
  rw [show (withCsc c s).unit u = s.unit u from rfl]
  dsimp only
  split
  · exact unitRecovered_withCsc c (s.setUnit u _) u
  · rfl

theorem applyHeld_withCsc (u : Nat) : applyHeld u (withCsc c s) = withCsc c (applyHeld u s) := by
  unfold applyHeld
  rw [show (withCsc c s).unit u = s.unit u from rfl,
    show (withCsc c s).underDeclared u = s.underDeclared u from rfl, leaveService_withCsc]
  dsimp only
  split_ifs
  all_goals rfl

theorem pollOver_withCsc (p : Poll) : pollOver p (withCsc c s) = withCsc c (pollOver p s) := by
  unfold pollOver
  dsimp only
  split
  · exact applyHeld_withCsc c { s with ppl := pollEnded s } p.unit
  · rfl

end

/-! ## The unit that answers (R113) -/

/-- The unit's record after its answer. -/
def answeredUnit (st : UnitStatus) (r : PlantUnit) : PlantUnit :=
  { r with
    state := .answering, missed := 0, missingSince := none, unlogged := false
    last := some st, power := st.supply != 0, level := st.levelClass != 0 }

/-- The answer has been written, with PLANT attention when a condition has changed. -/
def statusWritten (u : Nat) (st : UnitStatus) (s : State) : State :=
  raiseIf (st.conditions != ((s.unit u).power, (s.unit u).level)) .plant (s.setUnit u (answeredUnit st (s.unit u)))

section
variable (u : Nat) (st : UnitStatus) (s : State)

theorem unitAnswered_eq : unitAnswered u st s =
    if (s.unit u).state = .missing ∨ (s.unit u).state = .silent then unitRecovered u (statusWritten u st s)
    else statusWritten u st s := by
  have hdark : (s.unit u).dark = true ↔ (s.unit u).state = .missing ∨ (s.unit u).state = .silent := by
    simp [PlantUnit.dark]
  exact if_congr hdark rfl rfl

theorem statusWritten_only : OnlyChanges [.ppl, .attn] s (statusWritten u st s) :=
  ((setUnit_only u _ s).mono (by simp)).trans ((raiseIf_only _ _ _).mono (by simp))

theorem statusWritten_ppl_of_setUnit :
    (statusWritten u st s).ppl = (s.setUnit u (answeredUnit st (s.unit u))).ppl :=
  raiseIf_only _ _ _ .ppl (by simp)

theorem statusWritten_unit (v : Nat) :
    (statusWritten u st s).unit v = if v = u then answeredUnit st (s.unit u) else s.unit v := by
  have hunit : (statusWritten u st s).unit v = (s.setUnit u (answeredUnit st (s.unit u))).unit v :=
    congrArg (fun x : Ppl => Table.get (fun _ => PlantUnit.blank) x.units v) (statusWritten_ppl_of_setUnit u st s)
  rw [hunit, unit_setUnit]

theorem statusWritten_ppl : (statusWritten u st s).ppl = { s.ppl with units := (statusWritten u st s).ppl.units } := by
  rw [statusWritten_ppl_of_setUnit]
  rfl

theorem statusWritten_raised : Raised
    (if (st.supply != 0) = (s.unit u).power ∧ (st.levelClass != 0) = (s.unit u).level then [] else [.plant]) s
    (statusWritten u st s) := by
  have hwritten : (s.setUnit u (answeredUnit st (s.unit u))).ofp = s.ofp := rfl
  unfold statusWritten
  by_cases hsame : (st.supply != 0) = (s.unit u).power ∧ (st.levelClass != 0) = (s.unit u).level
  · have hcond : (st.conditions != ((s.unit u).power, (s.unit u).level)) = false := by
      simp [UnitStatus.conditions, hsame]
    rw [if_pos hsame, hcond]
    exact raised_of_eq hwritten
  · have hcond : (st.conditions != ((s.unit u).power, (s.unit u).level)) = true :=
      bne_iff_ne.mpr fun heq => hsame (Prod.mk.injEq _ _ _ _ ▸ heq)
    rw [if_neg hsame, hcond]
    exact raised_raise .plant _ _ hwritten

end

/-! ## The answer of a POLL window -/

/-- What the answer of the poll `p` leaves, its window aside. -/
def statusTaken (p : Poll) (st : UnitStatus) (s : State) : State :=
  pollOver p (if (s.unit p.unit).state = .missing ∨ (s.unit p.unit).state = .silent
    then unitRecovered p.unit (statusWritten p.unit st s) else statusWritten p.unit st s)

theorem statusTaken_only (p : Poll) (st : UnitStatus) (s : State) :
    OnlyChanges [.olz, .ppl, .attn] s (statusTaken p st s) := by
  have hwritten := (statusWritten_only p.unit st s).mono (qs := [.olz, .ppl, .attn]) (by simp)
  have hreported : OnlyChanges [.olz, .ppl, .attn] s
      (if (s.unit p.unit).state = .missing ∨ (s.unit p.unit).state = .silent
        then unitRecovered p.unit (statusWritten p.unit st s) else statusWritten p.unit st s) :=
    .ite (hwritten.trans (unitRecovered_only _ _)) hwritten
  unfold statusTaken
  rw [← endPoll_eq]
  exact hreported.trans (endPoll_only p _)

theorem takeAnswer_status {w : Window} {p : Poll} (st : UnitStatus) {s : State} (hkind : w.kind = .poll)
    (hpoll : s.ppl.poll = some p) (howns : p.owns w = true) :
    takeAnswer w (.status st) s = withCsc (windowAnswered w s).csc (statusTaken p st s) := by
  have htaken : takeAnswer w (.status st) s
      = endPoll p (unitAnswered p.unit st (withCsc (windowAnswered w s).csc s)) := by
    unfold takeAnswer
    rw [hkind]
    change pollAnswer w st (withCsc (windowAnswered w s).csc s) = _
    rw [pollAnswer, show (withCsc (windowAnswered w s).csc s).ppl = s.ppl from rfl, hpoll]
    exact if_pos howns
  have hwritten : statusWritten p.unit st (withCsc (windowAnswered w s).csc s)
      = withCsc (windowAnswered w s).csc (statusWritten p.unit st s) := by
    have hraise (on : Bool) (t : State) : raiseIf on .plant (withCsc (windowAnswered w s).csc t)
        = withCsc (windowAnswered w s).csc (raiseIf on .plant t) := by
      cases on <;> rfl
    exact hraise _ (s.setUnit p.unit _)
  rw [htaken, unitAnswered_eq, endPoll_eq, hwritten, unitRecovered_withCsc, ← apply_ite (withCsc _), pollOver_withCsc]
  rfl

theorem exec_status {w : Window} {p : Poll} {a b c : Byte} {s : State} (h : AwaitsAnswer w s) (hkind : w.kind = .poll)
    (hpoll : s.ppl.poll = some p) (howns : p.owns w = true) (ha : a.toNat ≤ 2) (hb : b.toNat ≤ 2)
    (hlo : -30 ≤ c.toInt) (hhi : c.toInt ≤ 50) :
    exec (.upstreamFrame (Frame.bytes ⟨0x82#8, w.address, [a, b, c]⟩)) s = done (stoppingEnd
      (withCsc (windowAnswered w s).csc (statusTaken p ⟨a.toNat, b.toNat, c.toInt⟩ s))) := by
  obtain ⟨hrun, hwindow, hslot⟩ := h
  have hload : s.sst.runState ≠ .loading := by rcases hrun with h | h <;> simp [h]
  have hform : frameForm ⟨0x82#8, w.address, [a, b, c]⟩ = .ok (.status ⟨a.toNat, b.toNat, c.toInt⟩) := by
    simp [frameForm, ha, hb, hlo, hhi]
  rw [exec_upstreamFrame (f := ⟨0x82#8, w.address, [a, b, c]⟩) (by simp) hload, judgeFrame_of_form hform,
    matchFrame_answer hwindow hslot (by rw [hkind]; rfl), takeAnswer_status _ hkind hpoll howns]

/-! ## The answers (O56) -/

theorem purchaseLeaves (d p : Nat) (s : State) :
    let r := s.drop d
    let t := purchase d p s
    let asks := s.aen.queue.length < 64 ∨ r.link = some .queued
    let asked := if asks then urgentlyRequested d r s.aen.queue else (r, s.aen.queue)
    (p = 0 → t = s)
      ∧ (p ≠ 0 → verdictOn d p s = .deferred → t = s)
      ∧ (p ≠ 0 → verdictOn d p s = .denied → OnlyChanges [.dtb, .queue, .attn] s t ∧ Raised [.purchase] s t
          ∧ OnlyDrop d s t ∧ (t.drop d, t.aen.queue) = asked)
      ∧ (p ≠ 0 → verdictOn d p s = .repeated → OnlyChanges [.dtb, .queue] s t
          ∧ OnlyDrop d s t ∧ (t.drop d, t.aen.queue) = asked)
      ∧ (p ≠ 0 → verdictOn d p s = .taken → OnlyChanges [.dtb, .queue, .attn, .bjn] s t ∧ OnlyDrop d s t
          ∧ (t.drop d, t.aen.queue) = urgentlyRequested d { r with events := r.events ++ [p] } s.aen.queue
          ∧ (∀ k e, s.findEvent p = some (k, e) →
              t.bjn = journalWith [.purchase d r.account p e.cfg.price] s)
          ∧ Raised (if 4096 - (s.bjn.held.length + 1) ≤ s.params.journalWatermark then [.purchase, .journal]
              else [.purchase]) s t) := by
  have hrequest := purchaseRequest_only d s
  obtain ⟨hdrop, hasked⟩ := purchaseRequest_spec d s
  refine ⟨fun hp => if_pos hp, fun hp hverdict => ?_, fun hp hverdict => ?_, fun hp hverdict => ?_,
    fun hp hverdict => ?_⟩
  all_goals
    have hjudged := purchase_judged d p s hp
    rw [hverdict] at hjudged
    rw [hjudged]
  · have hofp : (purchaseRequest d s).ofp.attn = s.ofp.attn := hrequest .attn (by simp)
    refine ⟨(hrequest.mono (by simp)).trans ((raise_only .purchase _).mono (by simp)), fun k => ?_, hdrop, hasked⟩
    by_cases hk : k = .purchase
    · simp [hk, attn_congr hofp]
    · simp [hk, attn_congr hofp]
  · exact ⟨hrequest, hdrop, hasked⟩
  · obtain ⟨hroom, hplace⟩ := verdictOn_taken hverdict
    refine ⟨takePurchase_only d p s, takePurchase_onlyDrop d p s, takePurchase_asked d p s hplace, fun k e hevent => ?_,
      takePurchase_raised d p s hroom⟩
    rw [takePurchase_bjn, (purchaseRecorded_wrote d p s).1, priceOf_of_event hevent]

/-- Settles O56: an ACK is its link effect and then its purchase, and a STATUS is the answer written and then the end
of the poll. -/
theorem upstreamAnswers : Obligations.UpstreamAnswers := by
  unfold Obligations.UpstreamAnswers
  refine ⟨fun w s h hkind hstale hservice => happens_ack_current h hkind hservice hstale,
    fun w p k e s h hauth hp => happens_ack_taken h hauth hp,
    fun w s h hkind hstale hservice => happens_ack_stale h hkind hservice hstale,
    fun w p s h hkind => ⟨_, _, exec_ack_without_purchase h hkind, exec_ack h hkind p, purchase_ackFinished w _ _ s⟩,
    purchaseLeaves, fun w p a b c s h hkind hpoll hopen hunit haddr ha hb hlo hhi => ?_,
    fun w p a b c s h hkind hrun hpoll hopen hunit haddr hheld ha hb hlo hhi hmissing hsilent => ?_⟩
  all_goals
    have howns : p.owns w = true := (owns_iff p w).mpr ⟨hopen, hunit, haddr⟩
    have hexec := exec_status h hkind hpoll howns ha hb hlo hhi
    have honly := statusTaken_only p ⟨a.toNat, b.toNat, c.toInt⟩ s
    have hclosed := windowClosed_of (w := w) (s := s)
      (u := withCsc (windowAnswered w s).csc (statusTaken p ⟨a.toNat, b.toNat, c.toInt⟩ s)) rfl (honly .sst (by simp))
    have hcsc := withCsc_only (c := (windowAnswered w s).csc) (honly .marks (by simp)).symm
  · refine happens_done hexec (((honly.mono (by simp)).trans (hcsc.mono (by simp))).trans
      ((stoppingEnd_only _).mono (by simp))) ⟨hclosed, _, statusWritten_only p.unit _ s, statusWritten_ppl p.unit _ s,
        statusWritten_unit p.unit _ s, statusWritten_raised p.unit _ s, ?_⟩
    exact ((hcsc.mono (by simp)).trans ((stoppingEnd_only _).mono (by simp))).trans
      ((report_only _).mono (by simp))
  · have htaken : statusTaken p ⟨a.toNat, b.toNat, c.toInt⟩ s = { statusWritten p.unit ⟨a.toNat, b.toNat, c.toInt⟩ s with
        ppl := pollEnded (statusWritten p.unit ⟨a.toNat, b.toNat, c.toInt⟩ s) } := by
      rw [statusTaken, if_neg (not_or.mpr ⟨hmissing, hsilent⟩), pollOver, hheld]
      rfl
    have hwritten := statusWritten_only p.unit ⟨a.toNat, b.toNat, c.toInt⟩ s
    have hppl := statusWritten_ppl p.unit ⟨a.toNat, b.toNat, c.toInt⟩ s
    have hunits := statusWritten_unit p.unit ⟨a.toNat, b.toNat, c.toInt⟩ s
    have hraised := statusWritten_raised p.unit ⟨a.toNat, b.toNat, c.toInt⟩ s
    have hstill : (withCsc (windowAnswered w s).csc (statusTaken p ⟨a.toNat, b.toNat, c.toInt⟩ s)).sst = s.sst :=
      honly .sst (by simp)
    rw [stoppingEnd_of_run (by rw [hstill]; exact hrun)] at hexec hclosed
    rw [htaken] at hexec hclosed hcsc
    generalize statusWritten p.unit ⟨a.toNat, b.toNat, c.toInt⟩ s = m at *
    have hsst : m.sst = s.sst := hwritten .sst (by simp)
    have hended : pollEnded m = { m.ppl with poll := none, cursor := m.ppl.cursor + 1 } :=
      if_pos (by rw [hsst]; exact hrun)
    rw [hended] at hexec hclosed hcsc
    have hleft := congrArg (fun x : Ppl => { x with poll := none, cursor := x.cursor + 1 }) hppl
    exact happens_done hexec (((hwritten.mono (by simp)).trans ((only_ppl _ m).mono (by simp))).trans
      (hcsc.mono (by simp))) ⟨hclosed, hleft, hunits, hraised⟩

end Sys2Proof.Proofs

/-! PROOFS. What LUR does with the loss and the return of a source (R7, R8, R18, R30). -/

namespace Sys2Proof.Proofs

open Sys2Proof Sys2Proof.Machine Sys2Proof.Laws

/-! ## Fallback latches (R7, R8) -/

/-- The fallback latch of the slots `ks` has been written. -/
def writeLatches (b : Bool) (ks : List Nat) (s : State) : State := ks.foldl (fun s j => setLatch b j s) s

section
variable (b : Bool) (ks : List Nat) (s : State)

theorem writeLatches_only : OnlyChanges [.lur] s (writeLatches b ks s) :=
  .foldl _ (fun s j => setLatch_only b j s) ks s

theorem writeLatches_events : (writeLatches b ks s).lur.events = s.lur.events := by
  induction ks generalizing s with
  | nil => rfl
  | cons k ks ih => exact ih (setLatch b k s)

theorem writeLatches_override : (writeLatches b ks s).lur.override = s.lur.override := by
  induction ks generalizing s with
  | nil => rfl
  | cons k ks ih => exact ih (setLatch b k s)

theorem writeLatches_slot (j : Nat) :
    (writeLatches b ks s).slot j = if j ∈ ks then { s.slot j with latch := b } else s.slot j := by
  induction ks generalizing s with
  | nil => rfl
  | cons k ks ih =>
    refine (ih (setLatch b k s)).trans ?_
    rw [setLatch, slot_setSlot]
    by_cases hj : j = k
    · subst hj
      simp
    · simp [hj]

theorem writeLatches_cfg (j : Nat) : ((writeLatches b ks s).slot j).cfg = (s.slot j).cfg := by
  rw [writeLatches_slot]
  split <;> rfl

theorem usesSource_writeLatches (x : Nat) : usesSource (writeLatches b ks s) x = usesSource s x := by
  funext j
  simp only [usesSource, writeLatches_cfg, writeLatches_override, showingOn_congr (writeLatches_events b ks s)]

end

/-- A slot with a primary other than the slate is listed. -/
theorem mem_slotKeys_of_primary {s : State} {j : Nat} (h : (s.slot j).cfg.primary ≠ 0) : j ∈ s.slotKeys := by
  by_contra hj
  exact h (by rw [slot_of_not_mem_slotKeys hj]; rfl)

/-- Writing the latch of the listed slots that `p` names writes it for each slot that `p` names, if no other slot is
named than a listed one. -/
theorem latchesWritten_of {p : Nat → Prop} [DecidablePred p] (b : Bool) {ks : List Nat} {s : State}
    (h : ∀ j, j ∈ ks ↔ p j) : LatchesWritten p b s (writeLatches b ks s) := by
  refine ⟨writeLatches_only b ks s, writeLatches_events b ks s, writeLatches_override b ks s, fun j => ?_⟩
  rw [writeLatches_slot]
  exact if_congr (h j) rfl rfl

/-! ## The loss of a source (R7, R18, R30) -/

/-- The slots whose latch the loss of source `k` newly sets. -/
def freshlyLatched (k : Nat) (s : State) : List Nat :=
  s.slotKeys.filter fun j => (s.slot j).cfg.primary == k && !(s.slot j).latch

/-- The latches are set, and the attention is raised. -/
def lossLatched (k : Nat) (s : State) : State :=
  raiseIf (s.lur.override.active && s.lur.override.source == k) .emergency
    (raiseIf (!(freshlyLatched k s).isEmpty) .fallback (writeLatches true (freshlyLatched k s) s))

section
variable (k : Nat) (b : Bool) (s : State)

theorem lossLatched_after : OnlyChanges [.attn] (writeLatches true (freshlyLatched k s) s) (lossLatched k s) :=
  (raiseIf_only _ _ _).trans (raiseIf_only _ _ _)

theorem lossLatched_lur : (lossLatched k s).lur = (writeLatches true (freshlyLatched k s) s).lur :=
  lossLatched_after k s .lur (by simp)

theorem sourceLost_eq : sourceLost k b s = resolveSlots ((lossLatched k s).slotKeys.filter fun j =>
    (freshlyLatched k s).contains j || (b && usesSource s k j)) (lossLatched k s) := by
  have hoverride : (raiseIf (!(freshlyLatched k s).isEmpty) .fallback
      (writeLatches true (freshlyLatched k s) s)).lur.override = s.lur.override :=
    (congrArg Lur.override (raiseIf_only (!(freshlyLatched k s).isEmpty) .fallback
      (writeLatches true (freshlyLatched k s) s) .lur (by simp) :)).trans (writeLatches_override _ _ s)
  have huses : usesSource (lossLatched k s) k = usesSource s k :=
    (usesSource_congr (lossLatched_lur k s) k).trans (usesSource_writeLatches true _ s k)
  rw [← huses, lossLatched, ← hoverride]
  rfl

variable {k : Nat} {b : Bool} {s : State}

theorem mem_freshlyLatched {j : Nat} (hk : k ≠ 0) :
    j ∈ freshlyLatched k s ↔ (s.slot j).cfg.primary = k ∧ (s.slot j).latch = false := by
  rw [freshlyLatched, List.mem_filter, Bool.and_eq_true, beq_iff_eq, Bool.not_eq_true']
  exact ⟨fun h => h.2, fun h => ⟨mem_slotKeys_of_primary (h.1 ▸ hk), h⟩⟩

theorem attn_lossLatched (j : Kind) : (lossLatched k s).attn j =
    if (j = .fallback ∧ freshlyLatched k s ≠ [])
      ∨ (j = .emergency ∧ s.lur.override.active = true ∧ s.lur.override.source = k) then (s.attn j).raised
    else s.attn j := by
  have hlatches := attn_congr (writeLatches_only true (freshlyLatched k s) s .attn (by simp))
  rw [lossLatched, attn_raiseIf, attn_raiseIf, attn_raiseIf, hlatches, hlatches, hlatches]
  cases j with
  | fallback => simp
  | emergency => simp
  | _ => simp

theorem lossLatched_raised_of_fresh (h : freshlyLatched k s ≠ []) : Raised
    (.fallback :: if s.lur.override.active = true ∧ s.lur.override.source = k then [.emergency] else []) s
    (lossLatched k s) := fun j => by
  rw [attn_lossLatched]
  by_cases hrun : s.lur.override.active = true ∧ s.lur.override.source = k <;> simp [h, hrun]

theorem lossLatched_raised_of_none (h : freshlyLatched k s = []) : Raised
    (if s.lur.override.active = true ∧ s.lur.override.source = k then [.emergency] else []) s (lossLatched k s) :=
  fun j => by
  rw [attn_lossLatched]
  by_cases hrun : s.lur.override.active = true ∧ s.lur.override.source = k <;> simp [h, hrun]

theorem freshlyLatched_ne_nil (hk : k ≠ 0) :
    freshlyLatched k s ≠ [] ↔ ∃ j, (s.slot j).cfg.primary = k ∧ (s.slot j).latch = false := by
  exact (List.eq_nil_iff_forall_not_mem.not.trans not_forall_not).trans (exists_congr fun j => mem_freshlyLatched hk)

theorem reresolved_of_attn {p : Nat → Bool} {s t u : State} (h : OnlyChanges [.attn] s t) (g : Reresolved p t u) :
    Reresolved p s u :=
  reresolved_congr g (h .lur (by simp)).symm (h .mxp (by simp)).symm (h .crs (by simp)).symm rfl rfl rfl rfl

theorem sourceLost_spec (hk : k ≠ 0) :
    let t := sourceLost k b s
    let fresh := fun j => (s.slot j).cfg.primary = k ∧ (s.slot j).latch = false
    let kinds : List Kind := (if s.lur.override.active = true ∧ s.lur.override.source = k then [.emergency] else [])
    OnlyChanges [.lur, .mxp, .crs, .attn] s t ∧ t.crs.eventPages = s.crs.eventPages
      ∧ ((∃ j, fresh j) → Raised (.fallback :: kinds) s t) ∧ ((¬∃ j, fresh j) → Raised kinds s t)
      ∧ ∃ v, LatchesWritten fresh true s v ∧ Reresolved (fun j => decide (fresh j) || (b && usesSource s k j)) v t := by
  intro t fresh kinds
  have hpages : (lossLatched k s).crs.eventPages = s.crs.eventPages :=
    (congrArg Crs.eventPages (lossLatched_after k s .crs (by simp) :)).trans
      (congrArg Crs.eventPages (writeLatches_only true (freshlyLatched k s) s .crs (by simp) :))
  have ht : t = resolveSlots _ (lossLatched k s) := sourceLost_eq k b s
  have hattn : ∀ j, t.attn j = (lossLatched k s).attn j := fun j => by
    rw [ht]
    exact attn_congr (resolveSlots_only _ _ .attn (by simp)) j
  have hnames : (fun j => (freshlyLatched k s).contains j || (b && usesSource s k j))
      = fun j => decide (fresh j) || (b && usesSource s k j) := funext fun j => by
    rw [List.contains_eq_mem, decide_eq_decide.mpr (mem_freshlyLatched hk)]
  refine ⟨sourceLost_only k b s, ?_, fun h j => ?_, fun h j => ?_, writeLatches true (freshlyLatched k s) s,
    latchesWritten_of true fun j => mem_freshlyLatched hk, ?_⟩
  · rw [ht]
    exact (resolveSlots_pagesOnly _ _).2.trans hpages
  · exact (hattn j).trans (lossLatched_raised_of_fresh ((freshlyLatched_ne_nil hk).mpr h) j)
  · exact (hattn j).trans (lossLatched_raised_of_none (not_not.mp fun hne => h ((freshlyLatched_ne_nil hk).mp hne)) j)
  · rw [ht, hnames]
    exact reresolved_of_attn (lossLatched_after k s) (reresolved_resolveSlots _ _)

end

/-! ## The return of a source (R8, R30) -/

/-- The slots whose latch the return of source `k` clears. -/
def latchRestored (k : Nat) (s : State) : List Nat :=
  s.slotKeys.filter fun j => (s.slot j).cfg.primary == k && (s.slot j).cfg.autoRestore

section
variable {k : Nat} {s : State}

theorem sourceReturned_eq (k : Nat) (s : State) :
    sourceReturned k s = usabilityChanged k (writeLatches false (latchRestored k s) s) := rfl

theorem mem_latchRestored {j : Nat} (hk : k ≠ 0) :
    j ∈ latchRestored k s ↔ (s.slot j).cfg.primary = k ∧ (s.slot j).cfg.autoRestore = true := by
  rw [latchRestored, List.mem_filter, Bool.and_eq_true, beq_iff_eq]
  exact ⟨fun h => h.2, fun h => ⟨mem_slotKeys_of_primary (h.1 ▸ hk), h⟩⟩

theorem sourceReturned_spec (hk : k ≠ 0) :
    let t := sourceReturned k s
    let restored := fun j => (s.slot j).cfg.primary = k ∧ (s.slot j).cfg.autoRestore = true
    OnlyChanges [.lur, .mxp, .crs] s t ∧ t.crs.eventPages = s.crs.eventPages
      ∧ ∃ v, LatchesWritten restored false s v ∧ Reresolved (usesSource s k) v t := by
  intro t restored
  have hpages : (writeLatches false (latchRestored k s) s).crs = s.crs := writeLatches_only false _ s .crs (by simp)
  refine ⟨sourceReturned_only k s, (usabilityChanged_eventPages k _).trans (congrArg Crs.eventPages hpages),
    writeLatches false (latchRestored k s) s, latchesWritten_of false fun j => mem_latchRestored hk, ?_⟩
  rw [← usesSource_writeLatches false (latchRestored k s) s k]
  exact reresolved_usabilityChanged k _

end

end Sys2Proof.Proofs

/-! PROOFS. A sample of the sources (R28 to R30): its judgment, and what its reports leave of the line-up. -/

namespace Sys2Proof.Proofs

open Sys2Proof Sys2Proof.Machine Sys2Proof.Laws

/-! ## The judgment of one source (R29, R30) -/

theorem judged_fst (p : Params) (good : Bool) (r : Source) : (judged p good r).1 = sampledSource p good r := by
  unfold judged sampledSource
  cases r.presence with
  | present =>
    by_cases h : p.lossSamples ≤ 1
    · cases good <;> simp [h, Nat.not_lt.mpr h]
    · cases good <;> simp [h, Nat.not_le.mp h]
  | doubtful =>
    by_cases h : p.lossSamples ≤ r.misses + 1
    · cases good <;> simp [h, Nat.not_lt.mpr h]
    · cases good <;> simp [h, Nat.not_le.mp h]
  | lost =>
    by_cases h : p.returnSamples ≤ 1
    · cases good <;> simp [h, Nat.not_lt.mpr h]
    · cases good <;> simp [h, Nat.not_le.mp h]
  | returning =>
    by_cases h : p.returnSamples ≤ r.goods + 1
    · cases good <;> simp [h, Nat.not_lt.mpr h]
    · cases good <;> simp [h, Nat.not_le.mp h]

/-- A report is one of a loss or of a return, by the presence before and after. -/
theorem reportPresence_judged (p : Params) (good : Bool) (r : Source) (k : Nat) (u : State) :
    reportPresence k (judged p good r).2 u = presenceReported k r.presence (sampledSource p good r).presence u := by
  rw [← judged_fst]
  unfold judged presenceReported
  cases hpresence : r.presence with
  | present =>
    by_cases h : p.lossSamples ≤ 1
    · cases good <;> simp [h, hpresence, reportPresence]
    · cases good <;> simp [h, hpresence, reportPresence]
  | doubtful =>
    by_cases h : p.lossSamples ≤ r.misses + 1
    · cases good <;> simp [h, reportPresence]
    · cases good <;> simp [h, reportPresence]
  | lost =>
    by_cases h : p.returnSamples ≤ 1
    · cases good <;> simp [h, hpresence, reportPresence]
    · cases good <;> simp [h, hpresence, reportPresence]
  | returning =>
    by_cases h : p.returnSamples ≤ r.goods + 1
    · cases good <;> simp [h, reportPresence]
    · cases good <;> simp [h, reportPresence]

/-- A source whose presence has not changed is not reported. -/
theorem presenceReported_same (k : Nat) (x : Presence) (u : State) : presenceReported k x x u = u := by
  cases x <;> simp [presenceReported]

/-! ## A sample is judged whole before its reports are taken (R28) -/

section
variable (counts : List Byte) (s : State)

/-- The monitored sources. -/
def monitoredSources : List Nat := (List.range 48).filter fun k => (s.source k).cfg.monitored

/-- Source `k` after the sample. -/
def sampledAt (k : Nat) : Source := sampledSource s.params ((counts.getD k 0#8) != 0#8) (s.source k)

/-- Every monitored source has been judged. -/
def sampleTaken : State := (monitoredSources s).foldl (fun t k => t.setSource k (sampledAt counts s k)) s

theorem source_foldl_setSource (f : Nat → Source) (ks : List Nat) (u : State) (k : Nat) :
    (ks.foldl (fun t k => t.setSource k (f k)) u).source k = if k ∈ ks then f k else u.source k := by
  induction ks generalizing u with
  | nil => rfl
  | cons j ks ih =>
    refine (ih (u.setSource j (f j))).trans ?_
    rw [source_setSource]
    by_cases hk : k = j
    · subst hk
      simp
    · simp [hk]

theorem sampleTaken_only : OnlyChanges [.smn] s (sampleTaken counts s) :=
  .foldl _ (fun t k => setSource_only k _ t) _ s

theorem sampleTaken_source (k : Nat) : (sampleTaken counts s).source k =
    if k < 48 ∧ (s.source k).cfg.monitored = true then sampledAt counts s k else s.source k := by
  refine (source_foldl_setSource (sampledAt counts s) (monitoredSources s) s k).trans (if_congr ?_ rfl rfl)
  rw [monitoredSources, List.mem_filter, List.mem_range]

/-- The reports of a sample in ascending source order, by the presence before and after. -/
def reportsTaken (before after : Nat → Presence) (ks : List Nat) (u : State) : State :=
  ks.foldl (fun u k => presenceReported k (before k) (after k) u) u

theorem judgeSample_eq : judgeSample counts s =
    reportsTaken (fun k => (s.source k).presence) (fun k => ((sampleTaken counts s).source k).presence) (List.range 48)
      (sampleTaken counts s) := by
  have hsampled : judgeSample counts s = (monitoredSources s).foldl (fun t k => reportPresence k
      (judged s.params ((counts.getD k 0#8) != 0#8) (s.source k)).2 t) (sampleTaken counts s) := by
    unfold judgeSample sampleTaken
    simp only [judged_fst]
    rfl
  rw [hsampled, monitoredSources, List.foldl_filter, reportsTaken]
  refine List.foldl_ext _ _ _ fun u k hk => ?_
  rw [sampleTaken_source, reportPresence_judged]
  by_cases hmon : (s.source k).cfg.monitored = true
  · rw [if_pos hmon, if_pos ⟨List.mem_range.mp hk, hmon⟩]
    rfl
  · rw [if_neg hmon, if_neg fun h => hmon h.2, presenceReported_same]

end

/-! ## What the reports of some sources keep -/

/-- What the reports about the sources `ks` keep of the line-up and the attention set: the slots with another primary
stay as resolved as they were, and attention is only raised. -/
structure ReportsKeep (ks : List Nat) (u t : State) : Prop where
  only : OnlyChanges [.lur, .mxp, .crs, .attn] u t
  mxp : t.mxp = { u.mxp with queue := t.mxp.queue }
  cfg : ∀ j, (t.slot j).cfg = (u.slot j).cfg
  latch : ∀ j, (u.slot j).cfg.primary ∉ ks → (t.slot j).latch = (u.slot j).latch
  resolved : ∀ j, (u.slot j).cfg.primary ∉ ks → Resolved j u → Resolved j t
  attn : ∀ k, t.attn k = u.attn k ∨ t.attn k = (u.attn k).raised

theorem ReportsKeep.refl (ks : List Nat) (u : State) : ReportsKeep ks u u where
  only := .refl _ u
  mxp := rfl
  cfg _ := rfl
  latch _ _ := rfl
  resolved _ _ h := h
  attn _ := .inl rfl

theorem ReportsKeep.trans {ks ls : List Nat} {u v t : State} (h : ReportsKeep ks u v) (g : ReportsKeep ls v t) :
    ReportsKeep (ks ++ ls) u t where
  only := h.only.trans g.only
  mxp := by rw [g.mxp, h.mxp]
  cfg j := (g.cfg j).trans (h.cfg j)
  latch j hj := by
    obtain ⟨hks, hls⟩ := not_or.mp (List.mem_append.not.mp hj)
    exact (g.latch j (by rwa [h.cfg])).trans (h.latch j hks)
  resolved j hj hres := by
    obtain ⟨hks, hls⟩ := not_or.mp (List.mem_append.not.mp hj)
    exact g.resolved j (by rwa [h.cfg]) (h.resolved j hks hres)
  attn k := by
    rcases h.attn k with hk | hk <;> rcases g.attn k with gk | gk <;> simp [gk, hk]

/-- An attention that has been raised stays raised. -/
theorem ReportsKeep.attn_raised {ks : List Nat} {u v t : State} (g : ReportsKeep ks v t) {k : Kind}
    (h : v.attn k = (u.attn k).raised) : t.attn k = (u.attn k).raised := by
  rcases g.attn k with gk | gk <;> simp [gk, h]

theorem resolveSlots_resolved_of {j : Nat} {ks : List Nat} {s : State} (h : Resolved j s) :
    Resolved j (resolveSlots ks s) := by
  by_cases hj : j ∈ ks
  · exact resolved_resolveSlots hj
  · rw [Resolved, resolution_resolveSlots, resolveSlots_slot, if_neg hj]
    exact h

theorem reportsKeep_resolveSlots (ks ls : List Nat) (s : State) : ReportsKeep ls s (resolveSlots ks s) where
  only := (resolveSlots_only ks s).mono (by simp)
  mxp := by rw [resolveSlots_mxp]
  cfg j := (keepsSlot_resolveSlots j).1
  latch j _ := (keepsSlot_resolveSlots j).2.1
  resolved _ _ h := resolveSlots_resolved_of h
  attn k := .inl (attn_congr (resolveSlots_only ks s .attn (by simp)) k)

theorem reportsKeep_raise (k : Kind) (ks : List Nat) (s : State) : ReportsKeep ks s (raise k s) where
  only := (raise_only k s).mono (by simp)
  mxp := rfl
  cfg _ := rfl
  latch _ _ := rfl
  resolved _ _ h := h
  attn j := by
    rw [attn_raise]
    split
    · next h => exact .inr (by rw [h])
    · exact .inl rfl

/-- Latches of slots with a primary among `ls` have been written. -/
theorem reportsKeep_writeLatches (b : Bool) {ks ls : List Nat} {s : State}
    (h : ∀ j ∈ ks, (s.slot j).cfg.primary ∈ ls) : ReportsKeep ls s (writeLatches b ks s) where
  only := (writeLatches_only b ks s).mono (by simp)
  mxp := by
    have hmxp : (writeLatches b ks s).mxp = s.mxp := writeLatches_only b ks s .mxp (by simp)
    rw [hmxp]
  cfg := writeLatches_cfg b ks s
  latch j hj := by rw [writeLatches_slot, if_neg fun hmem => hj (h j hmem)]
  resolved j hj hres := by
    have hslot : (writeLatches b ks s).slot j = s.slot j := by
      rw [writeLatches_slot, if_neg fun hmem => hj (h j hmem)]
    rw [Resolved, resolution_congr (congrArg Slot.cfg hslot) (congrArg Slot.latch hslot) (writeLatches_events b ks s)
      (writeLatches_override b ks s) (writeLatches_only b ks s .smn (by simp)), hslot]
    exact hres
  attn k := .inl (attn_congr (writeLatches_only b ks s .attn (by simp)) k)

theorem reportsKeep_raiseIf (b : Bool) (k : Kind) (ks : List Nat) (s : State) : ReportsKeep ks s (raiseIf b k s) := by
  cases b with
  | true => exact reportsKeep_raise k ks s
  | false => exact .refl ks s

theorem ReportsKeep.mono {ks ls : List Nat} {u t : State} (h : ReportsKeep ks u t) (hks : ks ⊆ ls) :
    ReportsKeep ls u t where
  only := h.only
  mxp := h.mxp
  cfg := h.cfg
  latch j hj := h.latch j fun hmem => hj (hks hmem)
  resolved j hj := h.resolved j fun hmem => hj (hks hmem)
  attn := h.attn

theorem reportsKeep_lossLatched (k : Nat) (s : State) : ReportsKeep [k] s (lossLatched k s) := by
  have hlatches : ReportsKeep [k] s (writeLatches true (freshlyLatched k s) s) :=
    reportsKeep_writeLatches true fun j hj => by simpa using (Bool.and_eq_true_iff.mp (List.mem_filter.mp hj).2).1
  exact ((hlatches.trans (reportsKeep_raiseIf _ _ [] _)).trans (reportsKeep_raiseIf _ _ [] _)).mono (by simp)

theorem reportsKeep_sourceLost (k : Nat) (b : Bool) (s : State) : ReportsKeep [k] s (sourceLost k b s) := by
  rw [sourceLost_eq]
  exact ((reportsKeep_lossLatched k s).trans (reportsKeep_resolveSlots _ [] _)).mono (by simp)

theorem reportsKeep_sourceReturned (k : Nat) (s : State) : ReportsKeep [k] s (sourceReturned k s) := by
  have hlatches : ReportsKeep [k] s (writeLatches false (latchRestored k s) s) :=
    reportsKeep_writeLatches false fun j hj => by simpa using (Bool.and_eq_true_iff.mp (List.mem_filter.mp hj).2).1
  exact (hlatches.trans (reportsKeep_resolveSlots _ [] _)).mono (by simp)

theorem reportsKeep_presenceReported (k : Nat) (x y : Presence) (u : State) :
    ReportsKeep [k] u (presenceReported k x y u) := by
  have hraised := reportsKeep_raise .source [] u
  unfold presenceReported
  split
  · exact (hraised.trans (reportsKeep_sourceLost k _ _)).mono (by simp)
  · split
    · exact (hraised.trans (reportsKeep_sourceReturned k _)).mono (by simp)
    · exact .refl _ u

theorem reportsKeep_reportsTaken (before after : Nat → Presence) (ks : List Nat) (u : State) :
    ReportsKeep ks u (reportsTaken before after ks u) := by
  induction ks generalizing u with
  | nil => exact .refl _ u
  | cons k ks ih => exact (reportsKeep_presenceReported k _ _ u).trans (ih _)

/-! ## What the report about a slot's primary does -/

section
variable {k : Nat} {u : State}

theorem sourceLost_latched (b : Bool) {j : Nat} (hj : (u.slot j).cfg.primary = k) (hk : k ≠ 0) :
    ((sourceLost k b u).slot j).latch = true
      ∧ ((u.slot j).latch = false →
          Resolved j (sourceLost k b u) ∧ (sourceLost k b u).attn .fallback = (u.attn .fallback).raised) := by
  obtain ⟨-, -, hraised, -, v, ⟨-, -, -, hlatch⟩, hslots, -⟩ := sourceLost_spec (b := b) (s := u) hk
  have hslot := hslots j
  refine ⟨?_, fun hclear => ⟨?_, ?_⟩⟩
  · have hset : (v.slot j).latch = true := by
      rw [hlatch]
      cases hold : (u.slot j).latch <;> simp [hj, hold]
    split at hslot
    · obtain ⟨-, -, hkept, -, -⟩ := hslot
      exact hkept.trans hset
    · rw [hslot, hset]
  · rw [if_pos (by simp [hj, hclear])] at hslot
    exact hslot.1
  · rw [hraised ⟨j, hj, hclear⟩ .fallback, if_pos (by simp)]

theorem sourceReturned_restored {j : Nat} (hj : (u.slot j).cfg.primary = k) (hk : k ≠ 0) :
    ((sourceReturned k u).slot j).latch = ((u.slot j).latch && !(u.slot j).cfg.autoRestore)
      ∧ Resolved j (sourceReturned k u) := by
  obtain ⟨-, -, v, ⟨-, -, -, hlatch⟩, hslots, -⟩ := sourceReturned_spec (s := u) hk
  have huses : usesSource u k j = true := by simp [usesSource, hj]
  have hslot := hslots j
  rw [if_pos huses] at hslot
  obtain ⟨hres, -, hkept, -, -⟩ := hslot
  refine ⟨hkept.trans ?_, hres⟩
  rw [hlatch]
  cases hauto : (u.slot j).cfg.autoRestore <;> simp [hj, hauto]

end

/-! ## The sample as a whole -/

/-- The sample reports a loss. -/
def ReportsLoss (x y : Presence) : Prop := y = .lost ∧ x ≠ .lost

/-- The sample reports a return. -/
def ReportsReturn (x y : Presence) : Prop := y = .present ∧ (x = .lost ∨ x = .returning)

theorem presenceReported_of_loss {x y : Presence} (h : ReportsLoss x y) (k : Nat) (u : State) :
    presenceReported k x y u = sourceLost k (decide (x ≠ .returning)) (raise .source u) := if_pos h

theorem presenceReported_of_return {x y : Presence} (h : ReportsReturn x y) (k : Nat) (u : State) :
    presenceReported k x y u = sourceReturned k (raise .source u) := by
  have hloss : ¬ReportsLoss x y := fun hl => by
    rw [h.1] at hl
    exact Presence.noConfusion hl.1
  exact (if_neg hloss).trans (if_pos h)

theorem presenceReported_of_neither {x y : Presence} (hl : ¬ReportsLoss x y) (hr : ¬ReportsReturn x y) (k : Nat)
    (u : State) : presenceReported k x y u = u := (if_neg hl).trans (if_neg hr)

section
variable {before after : Nat → Presence} {ks : List Nat} {u : State}

theorem reportsTaken_of_neither (h : ∀ k, ¬(ReportsLoss (before k) (after k) ∨ ReportsReturn (before k) (after k))) :
    reportsTaken before after ks u = u := by
  induction ks with
  | nil => rfl
  | cons k ks ih =>
    obtain ⟨hl, hr⟩ := not_or.mp (h k)
    rw [reportsTaken, List.foldl_cons, presenceReported_of_neither hl hr]
    exact ih

/-- A source that is reported comes between those below it and those above it. -/
theorem reportsTaken_split {k : Nat} (hk : k ∈ ks) (hnodup : ks.Nodup) : ∃ ls rs, k ∉ ls ∧ k ∉ rs ∧
    reportsTaken before after ks u = reportsTaken before after rs
      (presenceReported k (before k) (after k) (reportsTaken before after ls u)) := by
  obtain ⟨ls, rs, rfl⟩ := List.append_of_mem hk
  have hparts := List.nodup_append.mp hnodup
  refine ⟨ls, rs, fun hls => hparts.2.2 k hls k (by simp) rfl, (List.nodup_cons.mp hparts.2.1).1, ?_⟩
  rw [reportsTaken, List.foldl_append, List.foldl_cons]
  rfl

theorem reportsTaken_source {k : Nat} (hk : k ∈ ks) (hnodup : ks.Nodup)
    (h : ReportsLoss (before k) (after k) ∨ ReportsReturn (before k) (after k)) :
    (reportsTaken before after ks u).attn .source = (u.attn .source).raised := by
  obtain ⟨ls, rs, -, -, hsplit⟩ := reportsTaken_split (before := before) (after := after) (u := u) hk hnodup
  have hbefore := reportsKeep_reportsTaken before after ls u
  generalize reportsTaken before after ls u = v at *
  have hreport : (presenceReported k (before k) (after k) v).attn .source = (u.attn .source).raised := by
    have hraised : (raise .source v).attn .source = (u.attn .source).raised := by
      rw [attn_raise, if_pos rfl]
      rcases hbefore.attn .source with hv | hv <;> simp [hv]
    rcases h with h | h
    · rw [presenceReported_of_loss h]
      exact (reportsKeep_sourceLost k _ _).attn_raised hraised
    · rw [presenceReported_of_return h]
      exact (reportsKeep_sourceReturned k _).attn_raised hraised
  rw [hsplit]
  exact (reportsKeep_reportsTaken before after rs _).attn_raised hreport

variable {j : Nat} (hlisted : (u.slot j).cfg.primary ∈ ks) (hnodup : ks.Nodup) (hprimary : (u.slot j).cfg.primary ≠ 0)

include hlisted hnodup hprimary

theorem reportsTaken_lost
    (h : ReportsLoss (before (u.slot j).cfg.primary) (after (u.slot j).cfg.primary)) :
    ((reportsTaken before after ks u).slot j).latch = true
      ∧ ((u.slot j).latch = false → Resolved j (reportsTaken before after ks u)
          ∧ (reportsTaken before after ks u).attn .fallback = (u.attn .fallback).raised) := by
  obtain ⟨ls, rs, hls, hrs, hsplit⟩ := reportsTaken_split (before := before) (after := after) (u := u) hlisted hnodup
  have hbefore := reportsKeep_reportsTaken before after ls u
  rw [hsplit, presenceReported_of_loss h]
  generalize hk : (u.slot j).cfg.primary = k at *
  generalize reportsTaken before after ls u = v at *
  have hcfg : ((raise .source v).slot j).cfg.primary = k := (congrArg SlotCfg.primary (hbefore.cfg j)).trans hk
  obtain ⟨hlatch, hfresh⟩ := sourceLost_latched (decide (before k ≠ .returning)) hcfg hprimary
  have hlost := reportsKeep_sourceLost k (decide (before k ≠ .returning)) (raise .source v)
  generalize sourceLost k (decide (before k ≠ .returning)) (raise .source v) = w at *
  have hafter := reportsKeep_reportsTaken before after rs w
  have hkept : (w.slot j).cfg.primary ∉ rs := by rw [hlost.cfg, hcfg]; exact hrs
  refine ⟨(hafter.latch j hkept).trans hlatch, fun hclear => ?_⟩
  obtain ⟨hres, hraised⟩ := hfresh ((hbefore.latch j (by rw [hk]; exact hls)).trans hclear)
  refine ⟨hafter.resolved j hkept hres, hafter.attn_raised (hraised.trans ?_)⟩
  have hsame : (raise .source v).attn .fallback = v.attn .fallback := by simp
  rw [hsame]
  rcases hbefore.attn .fallback with hv | hv <;> simp [hv]

theorem reportsTaken_returned
    (h : ReportsReturn (before (u.slot j).cfg.primary) (after (u.slot j).cfg.primary)) :
    ((reportsTaken before after ks u).slot j).latch = ((u.slot j).latch && !(u.slot j).cfg.autoRestore)
      ∧ Resolved j (reportsTaken before after ks u) := by
  obtain ⟨ls, rs, hls, hrs, hsplit⟩ := reportsTaken_split (before := before) (after := after) (u := u) hlisted hnodup
  have hbefore := reportsKeep_reportsTaken before after ls u
  rw [hsplit, presenceReported_of_return h]
  generalize hk : (u.slot j).cfg.primary = k at *
  generalize reportsTaken before after ls u = v at *
  have hcfg : ((raise .source v).slot j).cfg.primary = k := (congrArg SlotCfg.primary (hbefore.cfg j)).trans hk
  obtain ⟨hlatch, hres⟩ := sourceReturned_restored hcfg hprimary
  have hback := reportsKeep_sourceReturned k (raise .source v)
  generalize sourceReturned k (raise .source v) = w at *
  have hafter := reportsKeep_reportsTaken before after rs w
  have hkept : (w.slot j).cfg.primary ∉ rs := by rw [hback.cfg, hcfg]; exact hrs
  refine ⟨(hafter.latch j hkept).trans (hlatch.trans ?_), hafter.resolved j hkept hres⟩
  have hslot : (v.slot j).latch = (u.slot j).latch := hbefore.latch j (by rw [hk]; exact hls)
  exact congrArg₂ (fun x y => x && !y) hslot (congrArg SlotCfg.autoRestore (hbefore.cfg j))

end

end Sys2Proof.Proofs

/-! PROOFS. The matrix port (O57): the transactions, and the sample that a read brings. -/

namespace Sys2Proof.Proofs

open Sys2Proof Sys2Proof.Machine Sys2Proof.Laws

/-! ## The transactions (R27, R31, R33 to R35) -/

theorem happens_sampleDue {s : State} (h : s.sst.runState ≠ .loading) :
    Happens .sampleDue s [.mxp] fun t => t.mxp = { s.mxp with readDue := true } := by
  have hexec : exec .sampleDue s = done { s with mxp := { s.mxp with readDue := true } } :=
    if_pos (by simp [State.portActs, h])
  exact happens_done hexec (only_mxp _ s) rfl

section
variable {s : State} (h : s.sst.runState ≠ .loading) (hfree : s.mxp.flight = none)

include h hfree

theorem exec_matrixIssue : exec .matrixIssue s = done (issueNext s) :=
  if_pos (by simp [State.portActs, h, hfree])

theorem happens_issueRead (hread : issueNext s = issueRead s) : Happens .matrixIssue s [.mxp] fun t =>
    t.mxp = { s.mxp with flight := some .read, readDue := false, last := .read } := by
  have hexec := exec_matrixIssue h hfree
  rw [hread] at hexec
  exact happens_done hexec (only_mxp _ s) rfl

theorem happens_issueOrder {o : Order} {q : List Order} (hq : s.mxp.queue = o :: q)
    (horder : issueNext s = issueOrder s) : Happens .matrixIssue s [.mxp] fun t =>
      t.mxp = { s.mxp with queue := q, flight := some (.order o.slot o.source 1), last := .order } := by
  have hissued : issueOrder s =
      { s with mxp := { s.mxp with queue := q, flight := some (.order o.slot o.source 1), last := .order } } := by
    rw [issueOrder, hq]
  have hexec := exec_matrixIssue h hfree
  rw [horder, hissued] at hexec
  exact happens_done hexec (only_mxp _ s) rfl

end

theorem endFlight_only (s : State) : OnlyChanges [.mxp] s (endFlight s) := only_mxp _ s

/-- An order in flight has ended: its slot carries what it carries, with or without a fault. -/
def orderEnded (k : Nat) (x : Option Nat) (fault : Bool) (s : State) : State := endFlight (setCarried k x fault s)

section
variable (k : Nat) (x : Option Nat) (fault : Bool) (s : State)

theorem orderEnded_only : OnlyChanges [.mxp, .lur] s (orderEnded k x fault s) :=
  ((setSlot_only k _ s).mono (by simp)).trans ((endFlight_only _).mono (by simp))

theorem orderEnded_slot (j : Nat) : (orderEnded k x fault s).slot j =
    if j = k then { s.slot k with carried := x, fault := fault } else s.slot j := slot_setSlot s k j _

end

/-! ## The sample (R28 to R30) -/

/-- The reports of a sample that has made `m` of the sources. -/
def sampleReports (s m : State) : State :=
  reportsTaken (fun k => (s.source k).presence) (fun k => (m.source k).presence) (List.range 48) m

/-- The sample reports the loss or the return of source `k`. -/
def Reported (s m : State) (k : Nat) : Prop :=
  ReportsLoss (s.source k).presence (m.source k).presence ∨ ReportsReturn (s.source k).presence (m.source k).presence

section
variable {s m : State}

theorem sampleReports_keep (s m : State) : ReportsKeep (List.range 48) m (sampleReports s m) :=
  reportsKeep_reportsTaken _ _ _ m

theorem sampleReports_of_none (h : ∀ k, ¬Reported s m k) : sampleReports s m = m := reportsTaken_of_neither h

theorem presence_changed_of_reported {k : Nat} (h : Reported s m k) :
    (m.source k).presence ≠ (s.source k).presence := fun heq => by
  rcases h with ⟨hlost, hbefore⟩ | ⟨hpresent, hbefore⟩
  · exact hbefore (heq ▸ hlost)
  · rw [heq] at hpresent
    rcases hbefore with hb | hb <;> simp [hpresent] at hb

variable (hsource : ∀ k, ¬k < 48 → m.source k = s.source k)

include hsource

theorem mem_range_of_reported {k : Nat} (h : Reported s m k) : k ∈ List.range 48 := by
  by_contra hk
  exact presence_changed_of_reported h (congrArg Source.presence (hsource k fun hlt => hk (List.mem_range.mpr hlt)))

theorem sampleReports_source {k : Nat} (h : Reported s m k) :
    (sampleReports s m).attn .source = (m.attn .source).raised :=
  reportsTaken_source (mem_range_of_reported hsource h) List.nodup_range h

variable {j : Nat} (hprimary : (m.slot j).cfg.primary ≠ 0)

include hprimary

theorem sampleReports_lost (h : ReportsLoss (s.source (m.slot j).cfg.primary).presence
      (m.source (m.slot j).cfg.primary).presence) : ((sampleReports s m).slot j).latch = true
    ∧ ((m.slot j).latch = false → Resolved j (sampleReports s m)
        ∧ (sampleReports s m).attn .fallback = (m.attn .fallback).raised) :=
  reportsTaken_lost (mem_range_of_reported hsource (.inl h)) List.nodup_range hprimary h

theorem sampleReports_returned (h : ReportsReturn (s.source (m.slot j).cfg.primary).presence
      (m.source (m.slot j).cfg.primary).presence) :
    ((sampleReports s m).slot j).latch = ((m.slot j).latch && !(m.slot j).cfg.autoRestore)
      ∧ Resolved j (sampleReports s m) :=
  reportsTaken_returned (mem_range_of_reported hsource (.inr h)) List.nodup_range hprimary h

end

/-- What a read's answer leaves. -/
theorem happens_activityReadAnswer {counts : List Byte} {s : State} (hlen : counts.length = 48)
    (hread : s.mxp.flight = some .read) :
    Happens (.activityReadAnswer counts) s [.mxp, .smn, .lur, .crs, .attn] fun t =>
      let lost := fun k => (s.source k).presence ≠ .lost ∧ (t.source k).presence = .lost
      let back := fun k => ((s.source k).presence = .lost ∨ (s.source k).presence = .returning)
        ∧ (t.source k).presence = .present
      t.mxp = { s.mxp with flight := none, queue := t.mxp.queue }
        ∧ (∀ k, t.source k =
            if k < 48 ∧ (s.source k).cfg.monitored = true then
              sampledSource s.params ((counts.getD k 0#8) != 0#8) (s.source k) else s.source k)
        ∧ ((∃ k, lost k ∨ back k) → t.attn .source = (s.attn .source).raised)
        ∧ ((¬∃ k, lost k ∨ back k) → Raised [] s t ∧ t.lur = s.lur ∧ t.crs = s.crs ∧ t.mxp.queue = s.mxp.queue)
        ∧ (∀ j, (s.slot j).cfg.primary ≠ 0 → lost (s.slot j).cfg.primary → (t.slot j).latch = true
            ∧ ((s.slot j).latch = false → Resolved j t ∧ t.attn .fallback = (s.attn .fallback).raised))
        ∧ (∀ j, (s.slot j).cfg.primary ≠ 0 → back (s.slot j).cfg.primary →
            (t.slot j).latch = ((s.slot j).latch && !(s.slot j).cfg.autoRestore) ∧ Resolved j t)
        ∧ ∃ m, OnlyChanges [.mxp, .smn] s m ∧ m.mxp = { s.mxp with flight := none } ∧ m.smn = t.smn
            ∧ OnlyChanges [.marks] ((List.range 48).foldl
                (fun u k => presenceReported k (s.source k).presence (t.source k).presence u) m) t := by
  have hexec : exec (.activityReadAnswer counts) s = done (judgeSample counts (endFlight s)) := by
    change execActivityReadAnswer counts s = _
    rw [execActivityReadAnswer, if_neg (not_not.mpr hlen), hread]
  have hsampled := sampleTaken_only counts (endFlight s)
  have hsource := sampleTaken_source counts (endFlight s)
  rw [judgeSample_eq] at hexec
  generalize sampleTaken counts (endFlight s) = m at *
  have hm : OnlyChanges [.mxp, .smn] s m := ((endFlight_only s).mono (by simp)).trans (hsampled.mono (by simp))
  have hmxp : m.mxp = { s.mxp with flight := none } := hsampled .mxp (by simp)
  have hlur : m.lur = s.lur := hm .lur (by simp)
  have hslot : m.slot = s.slot := slot_congr hlur
  have hattn : ∀ k, m.attn k = s.attn k := attn_congr (hm .attn (by simp))
  have hkept : ∀ k, ¬k < 48 → m.source k = s.source k := fun k hk => (hsource k).trans (if_neg fun h => hk h.1)
  have hreports := sampleReports_keep s m
  have hpresence : ∀ k, (sampleReports s m).report.source k = m.source k :=
    source_congr (hreports.only .smn (by simp))
  have hdone : exec (.activityReadAnswer counts) s = done (sampleReports s m) := hexec
  refine happens_done hdone ((hm.mono (by simp)).trans (hreports.only.mono (by simp))) ?_
  intro lost back
  have hreported : ∀ k, Reported s m k ↔ lost k ∨ back k := fun k => by
    simp only [Reported, ReportsLoss, ReportsReturn, lost, back, ← hpresence k]
    exact or_congr and_comm and_comm
  refine ⟨?_, fun k => ?_, fun ⟨k, hk⟩ => ?_, fun hnone => ?_, fun j hj hlost => ?_, fun j hj hback => ?_, m, hm, hmxp,
    (hreports.only .smn (by simp)).symm, ?_⟩
  · refine Eq.trans hreports.mxp ?_
    rw [hmxp]
    rfl
  · exact (hpresence k).trans (hsource k)
  · exact (sampleReports_source hkept ((hreported k).mpr hk)).trans (by rw [hattn])
  · rw [sampleReports_of_none fun k hk => hnone ⟨k, (hreported k).mp hk⟩]
    exact ⟨raised_nil_of_attn (hm .attn (by simp)), hlur, hm .crs (by simp), (congrArg Mxp.queue hmxp :)⟩
  · have hleft := sampleReports_lost hkept (j := j) (by rw [hslot]; exact hj)
      (by rw [hslot, ← hpresence]; exact ⟨hlost.2, hlost.1⟩)
    rw [hslot, hattn] at hleft
    exact hleft
  · have hleft := sampleReports_returned hkept (j := j) (by rw [hslot]; exact hj)
      (by rw [hslot, ← hpresence]; exact ⟨hback.2, hback.1⟩)
    rw [hslot] at hleft
    exact hleft
  · simp only [hpresence]
    exact report_only (sampleReports s m)

/-- Settles O57: a transaction at a time, and a sample as its judgment and its reports in turn. -/
theorem matrixPort : Obligations.MatrixPort := by
  unfold Obligations.MatrixPort
  refine ⟨fun s h => happens_sampleDue h, fun s h hfree => ⟨fun hq hdue => ?_, fun hq hdue => ?_, fun hq hdue hlast => ?_,
      fun o q hq hturn => ?_⟩,
    fun counts s hlen hread => happens_activityReadAnswer hlen hread, fun k b s hk => sourceLost_spec hk,
    fun k s hk => sourceReturned_spec hk, fun _ _ _ => rfl, rfl, fun s hread => ?_, fun k x issue s hflight => ?_,
    fun k x s hflight => ?_, fun k x s hflight => ?_, fun s => rfl⟩
  · have hexec := exec_matrixIssue h hfree
    rw [show issueNext s = s by simp [issueNext, hq, hdue]] at hexec
    exact happens_done (t := s) hexec (.refl _ s) trivial
  · exact happens_issueRead h hfree (by simp [issueNext, hq, hdue])
  · exact happens_issueRead h hfree (by simp [issueNext, hq, hdue, hlast])
  · refine happens_issueOrder h hfree hq ?_
    rcases hturn with hdue | hlast
    · simp [issueNext, hq, hdue]
    · cases hdue : s.mxp.readDue <;> simp [issueNext, hq, hdue, hlast]
  · have hexec : exec .activityReadTimeout s = done (raise .matrix (endFlight s)) := by
      change execActivityReadTimeout s = _
      rw [execActivityReadTimeout, hread]
    exact happens_done hexec (((endFlight_only s).mono (by simp)).trans ((raise_only .matrix _).mono (by simp)))
      ⟨rfl, raised_raise .matrix s _ rfl⟩
  · have hexec : exec .switchAnswered s = done (orderEnded k (some x) false s) := by
      change execSwitchAnswered s = _
      rw [execSwitchAnswered, hflight]
      rfl
    exact happens_done hexec (orderEnded_only k (some x) false s) ⟨rfl, rfl, rfl, orderEnded_slot k (some x) false s⟩
  · have hexec : exec .switchTimeout s = done { s with mxp := { s.mxp with flight := some (.order k x 2) } } := by
      change execSwitchTimeout s = _
      rw [execSwitchTimeout, hflight]
      rfl
    exact happens_done hexec (only_mxp _ s) rfl
  · have hexec : exec .switchTimeout s = done (raise .matrix (orderEnded k none true s)) := by
      change execSwitchTimeout s = _
      rw [execSwitchTimeout, hflight]
      rfl
    exact happens_done hexec (((orderEnded_only k none true s).mono (by simp)).trans
      ((raise_only .matrix _).mono (by simp)))
      ⟨rfl, rfl, rfl, orderEnded_slot k none true s, raised_raise .matrix s _ rfl⟩

end Sys2Proof.Proofs

/-! PROOFS. The wave engine (O58): a head that starts, a visit, and the completion of a wave. -/

namespace Sys2Proof.Proofs

open Sys2Proof Sys2Proof.Machine Sys2Proof.Laws

/-! ## When the engine visits (R66, R83, R85) -/

/-- A paused engine may visit: it is owed the visit, or there is room and no settle pass paused before it. -/
def MayVisit (s : State) : Prop :=
  s.aen.paused = true → s.aen.owed = true ∨ (s.aen.queue.length < 56 ∧ s.olz.paused = false)

theorem canVisitWave_of {w : Wave} {ws : List Wave} {s : State} (hadv : Advances s) (hwaves : s.aen.waves = w :: ws)
    (hleft : w.running = true → w.cursor < 2048) (hmay : MayVisit s) : s.canVisitWave = true := by
  have hpaused : (!s.aen.paused || s.aen.owed || (decide (s.aen.queue.length < 56) && !s.olz.paused)) = true := by
    cases hp : s.aen.paused with
    | false => simp
    | true => rcases hmay hp with howed | ⟨hroom, holz⟩ <;> simp [*]
  have hhead : (!w.running || decide (w.cursor < 2048)) = true := by
    cases hr : w.running <;> simp [hleft, hr]
  rw [State.canVisitWave, advances_iff.mpr hadv, hpaused, hwaves, List.head?_cons, Option.any_some, hhead]
  rfl

/-! ## A head that starts (R83) -/

theorem startHead_of_running {w : Wave} {ws : List Wave} {s : State} (hwaves : s.aen.waves = w :: ws)
    (hrunning : w.running = true) : startHead s = s := by
  rw [startHead, hwaves]
  exact if_pos hrunning

/-- The head has become RUNNING with its cursor at 0. -/
def headStarted (w : Wave) (ws : List Wave) (s : State) : State :=
  s.setWaves ({ w with running := true, cursor := 0 } :: ws)

theorem startHead_of_waiting {w : Wave} {ws : List Wave} {s : State} (hwaves : s.aen.waves = w :: ws)
    (hwaiting : w.running = false) : startHead s =
      if w.criterion = .all then markEnded (headStarted w ws s) else headStarted w ws s := by
  rw [startHead, hwaves]
  exact if_neg (by rw [hwaiting]; exact Bool.false_ne_true)

theorem startHead_waves {w : Wave} {ws : List Wave} {s : State} (hwaves : s.aen.waves = w :: ws)
    (hwaiting : w.running = false) :
    (startHead s).aen = { s.aen with waves := { w with running := true, cursor := 0 } :: ws } := by
  have haen : (markEnded (headStarted w ws s)).aen = (headStarted w ws s).aen :=
    aen_of_only (markEnded_only _) (by simp) (by simp)
  rw [startHead_of_waiting hwaves hwaiting]
  split
  · exact haen
  · rfl

theorem startHead_event {w : Wave} {ws : List Wave} {s : State} (hwaves : s.aen.waves = w :: ws)
    (hwaiting : w.running = false) (k : Nat) : (startHead s).event k = if w.criterion = .all then
      (s.event k).map fun e => { e with endedBeforeAll := decide (e.state = .ended) } else s.event k := by
  have hmarked : (s.event k).map Event.marked = (s.event k).map fun e =>
      { e with endedBeforeAll := decide (e.state = .ended) } :=
    congrArg (fun f => (s.event k).map f) (funext fun e => congrArg (fun b => { e with endedBeforeAll := b })
      (Bool.beq_eq_decide_eq e.state .ended))
  rw [startHead_of_waiting hwaves hwaiting]
  split
  · exact (markEnded_event (headStarted w ws s) k).trans hmarked
  · rfl

theorem startHead_keeps (s : State) : (startHead s).lur = { s.lur with events := (startHead s).lur.events } := by
  unfold startHead
  split
  · rfl
  · split
    · rfl
    · split
      · exact markEnded_lur _
      · rfl

/-- A head that has to start starts before its first visit, and visiting from the state so started is the same. -/
theorem exec_waveVisit_startHead {w : Wave} {ws : List Wave} {s : State} (hadv : Advances s)
    (hwaves : s.aen.waves = w :: ws) (hwaiting : w.running = false) (hmay : MayVisit s) :
    exec .waveVisit s = exec .waveVisit (startHead s) := by
  have haen := startHead_waves hwaves hwaiting
  have hstarted : (startHead s).aen.waves = { w with running := true, cursor := 0 } :: ws := by rw [haen]
  have honly := startHead_only s
  have hsst : (startHead s).sst = s.sst := honly .sst (by simp)
  have holz : (startHead s).olz = s.olz := honly .olz (by simp)
  have hcan := canVisitWave_of hadv hwaves (by rw [hwaiting]; exact fun h => absurd h Bool.false_ne_true) hmay
  have hcan' : (startHead s).canVisitWave = true :=
    canVisitWave_of (by rwa [Advances, hsst]) hstarted (fun _ => by simp) (by rwa [MayVisit, haen, holz])
  have htwice : waveVisit (startHead s) = waveVisit s := by
    rw [waveVisit, startHead_of_running hstarted rfl, waveVisit]
  exact (if_pos hcan).trans ((congrArg done htwice).symm.trans (if_pos hcan').symm)

/-! ## What a visit leaves of a drop (R84) -/

section
variable {w : Wave} {ws : List Wave} {s : State}

theorem exec_waveVisit (hadv : Advances s) (hwaves : s.aen.waves = w :: ws) (hrunning : w.running = true)
    (hleft : w.cursor < 2048) (hmay : MayVisit s) : exec .waveVisit s = done (visitDrop w.criterion w.cursor s) := by
  have hvisit : waveVisit s = visitDrop w.criterion w.cursor s := by
    rw [waveVisit, startHead_of_running hwaves hrunning, hwaves]
  exact (if_pos (canVisitWave_of hadv hwaves (fun _ => hleft) hmay)).trans (congrArg done hvisit)

/-- The drop as a visit strips it. -/
def strippedDrop (c : Criterion) (r : Drop) (s : State) : Drop :=
  { r with
    events := strippedEvents s c r.events
    stale := r.stale || (r.link == some .awaiting && decide (strippedEvents s c r.events ≠ r.events)) }

theorem stripDrop_spec (c : Criterion) (d : Nat) (s : State) : OnlyChanges [.dtb] s (stripDrop c d s)
    ∧ OnlyDrop d s (stripDrop c d s) ∧ (stripDrop c d s).drop d = strippedDrop c (s.drop d) s := by
  unfold stripDrop strippedDrop
  dsimp only
  split
  · next hsame =>
    refine ⟨.refl _ s, onlyDrop_refl d s, ?_⟩
    simp [hsame]
  · next hlost =>
    refine ⟨setDrop_only d _ s, onlyDrop_of_setDrop d _ s, ?_⟩
    simp [hlost]

theorem matchesWave_iff (c : Criterion) (r : Drop) : matchesWave c r = true ↔ r.service = .active ∧ match c with
    | .tiers m => (r.tiers ||| 1#16) &&& m ≠ 0#16
    | .event id => id ∈ r.events
    | .all => True := by
  unfold matchesWave
  rw [Bool.and_eq_true, beq_iff_eq]
  refine and_congr_right fun _ => ?_
  cases c with
  | tiers m => exact bne_iff_ne
  | event id => exact List.contains_iff_mem
  | all => simp

/-- The cursor of the head wave has been written, from a state that has kept the wave list. -/
theorem setWaveCursor_spec {d n : Nat} {paused : Bool} {u : State} {y : Drop} (hu : OnlyDrop d s u) (hy : u.drop d = y)
    (hwaves : u.aen.waves = w :: ws) : let t := (u.setWaveCursor n paused).report
    OnlyDrop d s t ∧ t.drop d = y ∧ t.aen.paused = paused ∧ t.aen.owed = false
      ∧ t.aen.waves = { w with cursor := n } :: ws :=
  ⟨hu, hy, rfl, rfl, by
    change (match u.aen.waves with | [] => [] | w :: ws => { w with cursor := n } :: ws) = _
    rw [hwaves]⟩

theorem setWaveCursor_only (n : Nat) (paused : Bool) (u : State) : OnlyChanges [.waves] u (u.setWaveCursor n paused) :=
  fun p hp => by
    cases p with
    | waves => simp at hp
    | _ => rfl

theorem queueRequest_awaiting {d : Nat} {u : State} (h : (u.drop d).link = some .awaiting) (cls : QClass) :
    queueRequest cls false d u = (u.setDrop d { u.drop d with stale := true }, .stale) := by
  simp [queueRequest, h]

theorem queueRequest_held {d : Nat} {u : State} (h : (u.drop d).link = some .queued ∨ (u.drop d).link = some .parked)
    (cls : QClass) : ∃ res, res ≠ .noPlace ∧ queueRequest cls false d u = (u, res) := by
  rcases h with h | h
  · exact ⟨.already, QResult.noConfusion, by simp [queueRequest, h]⟩
  · exact ⟨.parked, QResult.noConfusion, by simp [queueRequest, h]⟩

/-- The request of a visit for a SETTLED or UNCONFIRMED drop (R66). -/
theorem queueRequest_wave {d : Nat} {u : State} (h : (u.drop d).link = some .settled ∨ (u.drop d).link = some .unconfirmed) :
    queueRequest .wave false d u =
      if (u.drop d).outage.isSome then (u.setDrop d { u.drop d with link := some .parked }, .parked)
      else if u.aen.queue.length < 56 then
        ((u.setQueue (u.aen.queue ++ [⟨d, false⟩])).setDrop d
          { u.drop d with link := some .queued, attempts := 0 }, .queued)
      else (u, .noPlace) := by
  rcases h with h | h <;> simp [queueRequest, h, QClass.limit, placeEntry]

end

/-! ## A visit (R84, R85) -/

section
variable {c : Criterion} {d : Nat} {s : State}

theorem visitDrop_of_unmatched (hservice : (s.drop d).service ≠ .vacant) (hmatch : ¬matchesWave c (s.drop d) = true) :
    visitDrop c d s = (stripDrop c d s).setWaveCursor (d + 1) false :=
  (if_neg hservice).trans (if_neg hmatch)

theorem visitDrop_of_matched {v : State} {res : QResult} (hmatch : matchesWave c (s.drop d) = true)
    (hrequest : queueRequest .wave false d (stripDrop c d s) = (v, res)) (hplace : res ≠ .noPlace) :
    visitDrop c d s = v.setWaveCursor (d + 1) false := by
  have hactive : (s.drop d).service = .active := ((matchesWave_iff c _).mp hmatch).1
  unfold visitDrop
  dsimp only
  rw [if_neg (by rw [hactive]; exact Service.noConfusion), if_pos hmatch, hrequest]
  exact if_neg hplace

theorem visitDrop_of_noPlace {v : State} (hmatch : matchesWave c (s.drop d) = true)
    (hrequest : queueRequest .wave false d (stripDrop c d s) = (v, .noPlace)) :
    visitDrop c d s = v.setWaveCursor d true := by
  have hactive : (s.drop d).service = .active := ((matchesWave_iff c _).mp hmatch).1
  unfold visitDrop
  dsimp only
  rw [if_neg (by rw [hactive]; exact Service.noConfusion), if_pos hmatch, hrequest]
  rfl

end

theorem happens_imp {c : Instr} {s : State} {ps : List Part} {q q' : State → Prop} (h : Happens c s ps q)
    (himp : ∀ t, q t → q' t) : Happens c s ps q' := by
  obtain ⟨t, hexec, honly, hq⟩ := h
  exact ⟨t, hexec, honly, himp t hq⟩

theorem waves_of_agree {s t : State} (h : Agree .waves s t) : t.aen.waves = s.aen.waves := by
  have hwaves : { t.aen with queue := s.aen.queue } = s.aen := h
  exact (congrArg Aen.waves hwaves :)

section
variable {w : Wave} {ws : List Wave} {s : State} (hadv : Advances s) (hwaves : s.aen.waves = w :: ws)
  (hrunning : w.running = true) (hleft : w.cursor < 2048) (hmay : MayVisit s)

include hadv hwaves hrunning hleft hmay

/-- A visit that has left `v` and goes on to the next drop, or pauses at this one. -/
theorem happens_waveVisit {ps : List Part} {v : State} {y : Drop} {n : Nat} {paused : Bool}
    (hvisit : visitDrop w.criterion w.cursor s = v.setWaveCursor n paused) (honly : OnlyChanges ps s v)
    (hps : Part.waves ∉ ps) (hdrop : OnlyDrop w.cursor s v) (hy : v.drop w.cursor = y) :
    Happens .waveVisit s (.waves :: ps) fun t => (OnlyDrop w.cursor s t ∧ t.drop w.cursor = y ∧ t.aen.paused = paused
      ∧ t.aen.owed = false ∧ t.aen.waves = { w with cursor := n } :: ws) ∧ t.aen.queue = v.aen.queue := by
  have hexec := exec_waveVisit hadv hwaves hrunning hleft hmay
  rw [hvisit] at hexec
  exact happens_done hexec ((honly.mono fun _ h => List.mem_cons_of_mem _ h).trans
    ((setWaveCursor_only n paused v).mono (by simp)))
    ⟨setWaveCursor_spec hdrop hy ((waves_of_agree (honly .waves hps)).trans hwaves), rfl⟩

theorem waveVisit_cases :
    let d := w.cursor
    let r := s.drop d
    let matched := matchesWave w.criterion r = true
    let x := strippedDrop w.criterion r s
    let moves := fun (t : State) (y : Drop) => OnlyDrop d s t ∧ t.drop d = y ∧ t.aen.paused = false
      ∧ t.aen.owed = false ∧ t.aen.waves = { w with cursor := d + 1 } :: ws
    (r.service = .vacant → Happens .waveVisit s [.waves] fun t => moves t r)
      ∧ (r.service ≠ .vacant → ¬matched → Happens .waveVisit s [.waves, .dtb] fun t => moves t x)
      ∧ (matched → r.link = some .queued ∨ r.link = some .parked →
          Happens .waveVisit s [.waves, .dtb] fun t => moves t x)
      ∧ (matched → r.link = some .awaiting →
          Happens .waveVisit s [.waves, .dtb] fun t => moves t { x with stale := true })
      ∧ (matched → r.link = some .settled ∨ r.link = some .unconfirmed → r.outage ≠ none →
          Happens .waveVisit s [.waves, .dtb] fun t => moves t { x with link := some .parked })
      ∧ (matched → r.link = some .settled ∨ r.link = some .unconfirmed → r.outage = none → s.aen.queue.length < 56 →
          Happens .waveVisit s [.waves, .dtb, .queue] fun t =>
            moves t { x with link := some .queued, attempts := 0 } ∧ t.aen.queue = s.aen.queue ++ [⟨d, false⟩])
      ∧ (matched → r.link = some .settled ∨ r.link = some .unconfirmed → r.outage = none → 56 ≤ s.aen.queue.length →
          Happens .waveVisit s [.waves, .dtb] fun t =>
            OnlyDrop d s t ∧ t.drop d = x ∧ t.aen.paused = true ∧ t.aen.owed = false ∧ t.aen.waves = w :: ws) := by
  intro d r matched x moves
  obtain ⟨hstrip, hother, hx⟩ := stripDrop_spec w.criterion d s
  have hqueue : (stripDrop w.criterion d s).aen.queue = s.aen.queue := hstrip .queue (by simp)
  have hvisit {ps : List Part} {v : State} {y : Drop} {n : Nat} {paused : Bool} :=
    happens_waveVisit (ps := ps) (v := v) (y := y) (n := n) (paused := paused) hadv hwaves hrunning hleft hmay
  have hlink : ((stripDrop w.criterion d s).drop d).link = r.link := by rw [hx]; rfl
  have hfree := queueRequest_wave (d := d) (u := stripDrop w.criterion d s)
  rw [hlink, hx, hqueue, show (strippedDrop w.criterion (s.drop d) s).outage = r.outage from rfl] at hfree
  refine ⟨fun hvacant => ?_, fun hservice hmatch => ?_, fun hmatch hl => ?_, fun hmatch hl => ?_, fun hmatch hl hout => ?_,
    fun hmatch hl hout hroom => ?_, fun hmatch hl hout hfull => ?_⟩
  · exact happens_imp (hvisit (if_pos hvacant) (.refl [] s) (by simp) (onlyDrop_refl d s) rfl) fun _ h => h.1
  · exact happens_imp (hvisit (visitDrop_of_unmatched hservice hmatch) hstrip (by simp) hother hx) fun _ h => h.1
  · obtain ⟨res, hplace, hrequest⟩ := queueRequest_held (by rwa [hlink]) .wave
    exact happens_imp (hvisit (visitDrop_of_matched hmatch hrequest hplace) hstrip (by simp) hother hx) fun _ h => h.1
  · have hrequest := queueRequest_awaiting (hlink.trans hl) .wave
    rw [hx] at hrequest
    exact happens_imp (hvisit (visitDrop_of_matched hmatch hrequest QResult.noConfusion)
      (hstrip.trans (setDrop_only d _ _)) (by simp) (onlyDrop_trans hother (onlyDrop_of_setDrop d _ _))
      ((drop_setDrop _ d d _).trans (if_pos rfl))) fun _ h => h.1
  · rw [if_pos (Option.isSome_iff_ne_none.mpr hout)] at hfree
    exact happens_imp (hvisit (visitDrop_of_matched hmatch (hfree hl) QResult.noConfusion)
      (hstrip.trans (setDrop_only d _ _)) (by simp) (onlyDrop_trans hother (onlyDrop_of_setDrop d _ _))
      ((drop_setDrop _ d d _).trans (if_pos rfl))) fun _ h => h.1
  · rw [if_neg (by rw [hout]; exact Bool.false_ne_true), if_pos hroom] at hfree
    exact happens_imp (hvisit (visitDrop_of_matched hmatch (hfree hl) QResult.noConfusion)
      ((hstrip.mono (by simp)).trans (((setQueue_only _ _).mono (by simp)).trans ((setDrop_only d _ _).mono (by simp))))
      (by simp) (onlyDrop_trans hother (onlyDrop_of_setDrop d _ _)) ((drop_setDrop _ d d _).trans (if_pos rfl)))
      fun _ h => h
  · rw [if_neg (by rw [hout]; exact Bool.false_ne_true), if_neg (Nat.not_lt.mpr hfull)] at hfree
    exact happens_imp (hvisit (visitDrop_of_noPlace hmatch (hfree hl)) hstrip (by simp) hother hx) fun _ h => h.1

end

/-! ## The completion of a wave (R14, R83) -/

/-- The event once the wave with criterion `c` is complete. -/
def Event.completed (c : Criterion) (e : Event) : Event := { e with cleanup := e.cleanup || coveredBy c e }

section
variable (c : Criterion) (s : State)

theorem waveCompleted_only : OnlyChanges [.lur] s (waveCompleted c s) :=
  .foldl _ (fun u _ => OnlyChanges.ite (setEvent_only _ _ u) (.refl _ u)) _ s

theorem waveCompleted_event (k : Nat) : (waveCompleted c s).event k = (s.event k).map (Event.completed c) := by
  have hwritten := event_foldl_setEvent (f := fun e => { e with cleanup := true })
    (g := fun k => (s.event k).map fun e => { e with cleanup := true }) (s.eventEntries.filter fun e => coveredBy c e.2)
    (fun e he => by rw [mem_eventEntries.mp (List.mem_filter.mp he).1, Option.map_some]) s k
  rw [List.foldl_filter] at hwritten
  refine Eq.trans hwritten ?_
  cases he : s.event k with
  | none => simp
  | some e =>
    cases hcovered : coveredBy c e with
    | true =>
      have hk : k ∈ (s.eventEntries.filter fun e => coveredBy c e.2).map Prod.fst :=
        List.mem_map.mpr ⟨(k, e), List.mem_filter.mpr ⟨mem_eventEntries.mpr he, hcovered⟩, rfl⟩
      rw [if_pos hk]
      simp [Event.completed, hcovered]
    | false =>
      have hk : k ∉ (s.eventEntries.filter fun e => coveredBy c e.2).map Prod.fst := fun hk => by
        obtain ⟨⟨j, e'⟩, hmem, rfl⟩ := List.mem_map.mp hk
        obtain ⟨hentry, hcov⟩ := List.mem_filter.mp hmem
        have hsame : some e' = some e := (mem_eventEntries.mp hentry).symm.trans he
        cases hsame
        exact Bool.false_ne_true (hcovered.symm.trans hcov)
      rw [if_neg hk]
      simp [Event.completed, hcovered]

theorem waveCompleted_lur : (waveCompleted c s).lur = { s.lur with events := (waveCompleted c s).lur.events } := by
  unfold waveCompleted
  generalize s.eventEntries = es
  induction es generalizing s with
  | nil => rfl
  | cons e es ih =>
    rw [List.foldl_cons]
    split
    · exact ih (s.setEvent e.1 _)
    · exact ih s

end

/-- An ALL wave that has to start stands at the head. -/
def allStarts (ws : List Wave) : Bool := ws.head?.any fun v => !v.running && v.criterion == .all

/-- What the start of the head leaves of the wave list. -/
def headRunning (ws : List Wave) : List Wave :=
  match ws with
  | [] => []
  | v :: vs => (if v.running then v else { v with running := true, cursor := 0 }) :: vs

section
variable {ws : List Wave} {s : State} (hwaves : s.aen.waves = ws)

include hwaves

theorem aen_startHead : (startHead s).aen = { s.aen with waves := headRunning ws } := by
  cases ws with
  | nil =>
    have hstays : startHead s = s := by rw [startHead, hwaves]
    rw [hstays, headRunning, ← hwaves]
  | cons v vs =>
    cases hrunning : v.running with
    | true =>
      rw [startHead_of_running hwaves hrunning, headRunning, if_pos hrunning, ← hwaves]
    | false =>
      rw [startHead_waves hwaves hrunning, headRunning, if_neg (by rw [hrunning]; exact Bool.false_ne_true)]

theorem event_startHead (k : Nat) : (startHead s).event k = (s.event k).map fun e =>
    { e with endedBeforeAll := if allStarts ws then decide (e.state = .ended) else e.endedBeforeAll } := by
  cases ws with
  | nil =>
    have hstays : startHead s = s := by rw [startHead, hwaves]
    rw [hstays]
    simp [allStarts]
  | cons v vs =>
    cases hrunning : v.running with
    | true =>
      rw [startHead_of_running hwaves hrunning]
      simp [allStarts, hrunning]
    | false =>
      rw [startHead_event hwaves hrunning]
      by_cases hall : v.criterion = .all
      · simp [allStarts, hrunning, hall]
      · simp [allStarts, hrunning, hall]

end

theorem happens_waveComplete {w : Wave} {ws : List Wave} {s : State} (hadv : Advances s)
    (hwaves : s.aen.waves = w :: ws) (hrunning : w.running = true) (hdone : 2048 ≤ w.cursor) :
    Happens .waveComplete s [.waves, .lur] fun t =>
      t.aen = { s.aen with waves := headRunning ws, paused := false, owed := false }
        ∧ t.lur = { s.lur with events := t.lur.events }
        ∧ ∀ k, t.event k = (s.event k).map fun e => { Event.completed w.criterion e with
            endedBeforeAll := if allStarts ws then decide (e.state = .ended) else e.endedBeforeAll } := by
  have hcan : s.waveEnds = true := by
    rw [State.waveEnds, advances_iff.mpr hadv, hwaves]
    simp [hrunning, hdone]
  have hcomplete : waveComplete s = startHead (waveCompleted w.criterion
      { s with aen := { s.aen with waves := ws, paused := false, owed := false } }) := by
    rw [waveComplete, hwaves]
  have hexec : exec .waveComplete s = done (waveComplete s) := if_pos hcan
  rw [hcomplete] at hexec
  have hpopped : OnlyChanges [.waves] s
      { s with aen := { s.aen with waves := ws, paused := false, owed := false } } := fun p hp => by
    cases p with
    | waves => simp at hp
    | _ => rfl
  have hcompleted := waveCompleted_only w.criterion
    { s with aen := { s.aen with waves := ws, paused := false, owed := false } }
  have hlur := waveCompleted_lur w.criterion
    { s with aen := { s.aen with waves := ws, paused := false, owed := false } }
  have hevent := waveCompleted_event w.criterion
    { s with aen := { s.aen with waves := ws, paused := false, owed := false } }
  generalize waveCompleted w.criterion _ = u at *
  have haen := aen_of_only hcompleted (by simp) (by simp)
  have hu : u.aen.waves = ws := congrArg Aen.waves haen
  refine happens_done hexec (((hpopped.mono (by simp)).trans (hcompleted.mono (by simp))).trans
    ((startHead_only u).mono (by simp))) ⟨?_, ?_, fun k => ?_⟩
  · refine (aen_startHead hu).trans ?_
    rw [haen]
  · refine (startHead_keeps u).trans ?_
    rw [hlur]
    rfl
  · refine (event_startHead hu k).trans ?_
    rw [hevent, Option.map_map]
    rfl

/-- Settles O58: a waiting head starts, a visit strips and asks, and the completed wave gives way to the next. -/
theorem waveEngine : Obligations.WaveEngine := by
  unfold Obligations.WaveEngine
  refine ⟨fun w ws s hadv hwaves hwaiting hmay => ⟨exec_waveVisit_startHead hadv hwaves hwaiting hmay,
      (startHead_only s).mono (by simp), by rw [startHead_waves hwaves hwaiting],
      fun k => startHead_event hwaves hwaiting k⟩,
    fun w ws s hadv hwaves hrunning hleft hmay => ?_, fun w ws s hadv hwaves hrunning hdone => ?_⟩
  · intro d r ids matched x moves
    have hmatched : matched ↔ matchesWave w.criterion r = true := (matchesWave_iff w.criterion r).symm
    obtain ⟨hvacant, hstripped, hheld, hawaiting, hparked, hqueued, hpaused⟩ :=
      waveVisit_cases hadv hwaves hrunning hleft hmay
    exact ⟨hvacant, fun hs hm => hstripped hs (mt hmatched.mpr hm), fun hm => hheld (hmatched.mp hm),
      fun hm => hawaiting (hmatched.mp hm), fun hm => hparked (hmatched.mp hm), fun hm => hqueued (hmatched.mp hm),
      fun hm => hpaused (hmatched.mp hm)⟩
  · refine happens_imp (happens_waveComplete hadv hwaves hrunning hdone) fun t ⟨haen, hlur, hevent⟩ => ?_
    exact ⟨congrArg Aen.paused haen, congrArg Aen.owed haen, congrArg Aen.waves haen, (congrArg Lur.slots hlur :),
      (congrArg Lur.override hlur :), hevent⟩

end Sys2Proof.Proofs

/-! PROOFS. The settle pass (O59): its start, a visit, and its end. -/

namespace Sys2Proof.Proofs

open Sys2Proof Sys2Proof.Machine Sys2Proof.Laws

/-! ## The start (R127) -/

theorem passRunning_eq_true {s : State} : s.passRunning = true ↔ s.olz.taken ≠ [] := by
  simp [State.passRunning]

theorem canStartPass_of {s : State} (hadv : Advances s) (htaken : s.olz.taken = []) (hsettle : s.olz.settle ≠ []) :
    s.canStartPass = true := by
  simp [State.canStartPass, State.passRunning, htaken, hsettle, advances_iff.mpr hadv]

theorem startPass_only (s : State) : OnlyChanges [.olz] s (startPass s) := only_olz _ s

theorem startPass_olz (s : State) : (startPass s).olz = passStarted s s.olz := rfl

/-! ## A visit (R128, R129) -/

section
variable {s : State} (hadv : Advances s) (htaken : s.olz.taken ≠ []) (hleft : s.olz.cursor < 2048)
  (hroom : s.olz.paused = true → s.aen.queue.length < 56)

include hadv htaken hleft hroom

theorem exec_settleVisit : exec .settleVisit s = done (settleVisit s) := by
  have hpaused : (!s.olz.paused || decide (s.aen.queue.length < 56)) = true := by
    cases hp : s.olz.paused with
    | false => rfl
    | true => simp [hroom hp]
  exact if_pos (by
    rw [State.canSettle, passRunning_eq_true.mpr htaken, advances_iff.mpr hadv, hpaused, decide_eq_true hleft]
    rfl)

end

theorem isTaken_iff (s : State) (n : Option Nat) :
    s.isTaken n = true ↔ ∃ k b, n = some k ∧ (k, b) ∈ s.olz.taken := by
  cases n with
  | none => simp [State.isTaken]
  | some k => simp [State.isTaken]

/-- The engine's visit that is owed behind a visit of the pass (R66; log 27). -/
theorem settleVisit_engine {s u : State} (hu : settleAt s = u)
    (haen : u.aen.waves = s.aen.waves ∧ u.aen.paused = s.aen.paused ∧ u.aen.owed = s.aen.owed) :
    OnlyChanges [.waves] u (settleVisit s) ∧ (settleVisit s).aen.waves = s.aen.waves
      ∧ (settleVisit s).aen.paused = s.aen.paused
      ∧ (settleVisit s).aen.owed = (s.aen.owed || (s.olz.paused && s.aen.paused)) := by
  obtain ⟨hwaves, hpaused, howed⟩ := haen
  unfold settleVisit
  rw [hu]
  cases hbeside : s.olz.paused && s.aen.paused with
  | true => exact ⟨oweWaveVisit_only u, hwaves, hpaused, by simp [State.oweWaveVisit]⟩
  | false => exact ⟨.refl _ u, hwaves, hpaused, by simp [howed]⟩

theorem settleMove_eq (d : Nat) (s : State) : settleMove d s =
    if (s.drop d).outage ≠ s.proper d ∧ (s.isTaken (s.drop d).outage = true ∨ s.isTaken (s.proper d) = true)
      then transition d (s.proper d) s else s := by
  simp [settleMove]

/-- What the visit does after the transition it has made (R128, R129). -/
theorem settleAt_after {s u : State} (hservice : (s.drop s.olz.cursor).service ≠ .vacant)
    (hu : settleMove s.olz.cursor s = u) :
    let d := s.olz.cursor
    let t := settleAt s
    ((u.drop d).link ≠ some .parked ∨ (u.drop d).outage ≠ none → t = u.setPass (d + 1) false)
      ∧ ((u.drop d).link = some .parked → (u.drop d).outage = none → u.aen.queue.length < 56 →
          t = ((u.setQueue (u.aen.queue ++ [⟨d, false⟩])).setDrop d
            { u.drop d with link := some .queued, attempts := 0 }).setPass (d + 1) false)
      ∧ ((u.drop d).link = some .parked → (u.drop d).outage = none → 56 ≤ u.aen.queue.length →
          t = u.setPass d true) := by
  intro d t
  have ht : t = if (u.drop d).link = some .parked ∧ (u.drop d).outage = none then
      (if (parkedRequest .settle d u).2 then (parkedRequest .settle d u).1.setPass (d + 1) false
        else (parkedRequest .settle d u).1.setPass d true)
      else u.setPass (d + 1) false := by
    rw [← hu]
    exact if_neg hservice
  rw [ht]
  refine ⟨fun h => if_neg fun hboth => ?_, fun hlink hout hplace => ?_, fun hlink hout hfull => ?_⟩
  · exact h.elim (fun hl => hl hboth.1) fun ho => ho hboth.2
  · rw [if_pos ⟨hlink, hout⟩, parkedRequest, if_pos (show u.aen.queue.length < QClass.limit .settle from hplace)]
    rfl
  · rw [if_pos ⟨hlink, hout⟩, parkedRequest,
      if_neg (show ¬u.aen.queue.length < QClass.limit .settle from Nat.not_lt.mpr hfull)]
    rfl

theorem aen_of_settleAt (s : State) : (settleAt s).aen.waves = s.aen.waves ∧ (settleAt s).aen.paused = s.aen.paused
    ∧ (settleAt s).aen.owed = s.aen.owed := by
  have hwaves : { (settleAt s).aen with queue := s.aen.queue } = s.aen := settleAt_only s .waves (by simp)
  exact ⟨(congrArg Aen.waves hwaves :), (congrArg Aen.paused hwaves :), (congrArg Aen.owed hwaves :)⟩

section
variable {s : State} (hadv : Advances s) (htaken : s.olz.taken ≠ []) (hleft : s.olz.cursor < 2048)
  (hroom : s.olz.paused = true → s.aen.queue.length < 56)

include hadv htaken hleft hroom

theorem happens_settleVisit_vacant (hservice : (s.drop s.olz.cursor).service = .vacant) :
    Happens .settleVisit s [.olz, .waves] fun t => (t.aen.waves = s.aen.waves ∧ t.aen.paused = s.aen.paused
        ∧ t.aen.owed = (s.aen.owed || (s.olz.paused && s.aen.paused)))
      ∧ t.olz = { s.olz with cursor := s.olz.cursor + 1, paused := false } := by
  have hat : settleAt s = s.setPass (s.olz.cursor + 1) false := if_pos hservice
  obtain ⟨honly, hengine⟩ := settleVisit_engine rfl (aen_of_settleAt s)
  have holz : (settleVisit s).olz = (settleAt s).olz := honly .olz (by simp)
  rw [hat] at honly holz
  exact happens_done (exec_settleVisit hadv htaken hleft hroom)
    (((setPass_only _ _ s).mono (by simp)).trans (honly.mono (by simp))) ⟨hengine, holz⟩

/-- A visit of a drop that is not VACANT, from the transition it makes. -/
theorem happens_settleVisit {u : State} (hservice : (s.drop s.olz.cursor).service ≠ .vacant)
    (hu : settleMove s.olz.cursor s = u) :
    let d := s.olz.cursor
    Happens .settleVisit s [.olz, .dtb, .queue, .bjn, .attn, .waves] fun t =>
      (t.aen.waves = s.aen.waves ∧ t.aen.paused = s.aen.paused
          ∧ t.aen.owed = (s.aen.owed || (s.olz.paused && s.aen.paused)))
        ∧ ((u.drop d).link ≠ some .parked ∨ (u.drop d).outage ≠ none → OnlyChanges [.marks, .olz, .waves] u t
            ∧ t.olz = { u.olz with cursor := d + 1, paused := false })
          ∧ ((u.drop d).link = some .parked → (u.drop d).outage = none → u.aen.queue.length < 56 →
              OnlyChanges [.marks, .olz, .dtb, .queue, .waves] u t ∧ OnlyDrop d u t
                ∧ t.drop d = { u.drop d with link := some .queued, attempts := 0 }
                ∧ t.aen.queue = u.aen.queue ++ [⟨d, false⟩]
                ∧ t.olz = { u.olz with cursor := d + 1, paused := false })
          ∧ ((u.drop d).link = some .parked → (u.drop d).outage = none → 56 ≤ u.aen.queue.length →
              OnlyChanges [.marks, .olz, .waves] u t ∧ t.olz = { u.olz with cursor := d, paused := true }) := by
  intro d
  obtain ⟨hgoes, hplaced, hpauses⟩ := settleAt_after hservice hu
  obtain ⟨honly, hengine⟩ := settleVisit_engine rfl (aen_of_settleAt s)
  have hat := settleAt_only s
  generalize settleAt s = v at *
  have holz : (settleVisit s).olz = v.olz := honly .olz (by simp)
  have hdtb : (settleVisit s).dtb = v.dtb := honly .dtb (by simp)
  have hqueue : (settleVisit s).aen.queue = v.aen.queue := honly .queue (by simp)
  have hfinish := (honly.mono (qs := [.marks, .waves]) (by simp)).trans ((report_only _).mono (by simp))
  refine happens_done (exec_settleVisit hadv htaken hleft hroom) ((hat.mono (by simp)).trans (honly.mono (by simp)))
    ⟨hengine, fun h => ?_, fun hlink hout hfree => ?_, fun hlink hout hfull => ?_⟩
  · rw [hgoes h] at holz hfinish
    exact ⟨((setPass_only _ _ u).mono (by simp)).trans (hfinish.mono (by simp)), holz⟩
  · have hv := hplaced hlink hout hfree
    rw [hv] at holz hfinish hdtb hqueue
    refine ⟨?_, onlyDrop_trans (onlyDrop_of_setDrop d _ (u.setQueue _)) (onlyDrop_of_dtb hdtb),
      (drop_congr hdtb d).trans ((drop_setDrop _ d d _).trans (if_pos rfl)), hqueue, holz⟩
    exact ((((setQueue_only _ u).mono (by simp)).trans ((setDrop_only d _ _).mono (by simp))).trans
      ((setPass_only _ _ _).mono (by simp))).trans (hfinish.mono (by simp))
  · rw [hpauses hlink hout hfull] at holz hfinish
    exact ⟨((setPass_only _ _ u).mono (by simp)).trans (hfinish.mono (by simp)), holz⟩

end

/-! ## The end (R130) -/

theorem searchUnlogged_of_none {s : State} (h : ∀ u, (s.unit u).unlogged = false) : searchUnlogged s = s := by
  unfold searchUnlogged
  generalize s.unitKeys = us
  induction us with
  | nil => rfl
  | cons u us ih =>
    rw [List.foldl_cons]
    dsimp only
    rw [if_neg fun hf => by simp [h u] at hf]
    exact ih

/-- The records `ns` have become CLOSED. -/
def recordsClosed (ns : List Nat) (o : Olz) : Olz :=
  { o with
    log := o.log.map fun x => if x.number ∈ ns then { x with state := .closed } else x
    closedOrder := o.closedOrder ++ ns }

theorem recordsClosed_nil (o : Olz) : recordsClosed [] o = o := by simp [recordsClosed]

theorem recordsClosed_cons (n : Nat) (ns : List Nat) (o : Olz) :
    recordsClosed ns (recordsClosed [n] o) = recordsClosed (n :: ns) o := by
  simp only [recordsClosed, List.map_map, List.append_assoc, List.singleton_append]
  congr 1
  refine List.map_congr_left fun x _ => ?_
  by_cases hn : x.number = n
  · simp [hn]
  · simp [hn]

/-- With no unit waiting unlogged, a record that closes is closed and no more. -/
theorem closeRecord_of_none {n : Nat} {s : State} (h : ∀ u, (s.unit u).unlogged = false) :
    closeRecord n s = raise .outage { s with olz := recordsClosed [n] s.olz } := by
  have hclosed : recordsClosed [n] s.olz = { s.olz with
      log := s.olz.log.map fun o => if o.number = n then { o with state := .closed } else o
      closedOrder := s.olz.closedOrder ++ [n] } := by
    simp [recordsClosed]
  rw [hclosed]
  exact searchUnlogged_of_none h

theorem closeRecords_of_none {ns : List Nat} {s : State} (h : ∀ u, (s.unit u).unlogged = false) :
    let t := ns.foldl (fun s n => closeRecord n s) s
    OnlyChanges [.olz, .attn] s t ∧ t.olz = recordsClosed ns s.olz
      ∧ Raised (if ns = [] then [] else [.outage]) s t := by
  induction ns generalizing s with
  | nil => exact ⟨.refl _ s, (recordsClosed_nil _).symm, raised_nil s⟩
  | cons n ns ih =>
    intro t
    have ht : t = ns.foldl (fun s n => closeRecord n s) (raise .outage { s with olz := recordsClosed [n] s.olz }) :=
      congrArg (fun v => ns.foldl (fun s n => closeRecord n s) v) (closeRecord_of_none h)
    obtain ⟨honly, holz, hraised⟩ := ih (s := raise .outage { s with olz := recordsClosed [n] s.olz }) h
    rw [← ht] at honly holz hraised
    refine ⟨(((only_olz _ s).mono (by simp)).trans ((raise_only .outage _).mono (by simp))).trans honly,
      holz.trans (recordsClosed_cons n ns s.olz), fun k => ?_⟩
    have hattn : ∀ j, ({ s with olz := recordsClosed [n] s.olz } : State).attn j = s.attn j := fun _ => rfl
    rw [hraised, attn_raise, if_neg (List.cons_ne_nil n ns), hattn, hattn]
    by_cases hk : k = .outage
    · cases ns <;> simp [hk]
    · cases ns <;> simp [hk]

/-- The pass is over: its taken set is empty. -/
def withPassOver (s : State) : State := { s with olz := { s.olz with taken := [], paused := false } }

/-- Settles O59: the pass starts with the settle set, each visit is its transition and then its request, and at the end
the records taken while CLEARING close. -/
theorem settlePass : Obligations.SettlePass := by
  unfold Obligations.SettlePass
  refine ⟨fun s hadv htaken hsettle => ?_, fun s hadv htaken hleft hroom => ?_, fun s hadv htaken hdone hunits => ?_⟩
  · exact happens_done (if_pos (canStartPass_of hadv htaken hsettle)) (startPass_only s) (startPass_olz s)
  · intro d r isTaken engine visit
    have htook_iff : (isTaken r.outage ∨ isTaken (s.proper d)) ↔
        (s.isTaken r.outage = true ∨ s.isTaken (s.proper d) = true) :=
      (or_congr (isTaken_iff s _) (isTaken_iff s _)).symm
    refine ⟨fun hvacant => happens_settleVisit_vacant hadv htaken hleft hroom hvacant, fun hservice hdiffer htook => ?_,
      fun hservice hstays => ?_⟩
    · exact happens_settleVisit hadv htaken hleft hroom hservice ((settleMove_eq d s).trans (if_pos ⟨hdiffer, htook_iff.mp htook⟩))
    · refine happens_settleVisit hadv htaken hleft hroom hservice ((settleMove_eq d s).trans (if_neg fun h => ?_))
      exact hstays.elim (fun hsame => h.1 hsame) fun hnone => hnone (htook_iff.mpr h.2)
  · intro closing
    have hexec : exec .settlePassEnd s = done (endPass s) := if_pos (by
      rw [State.passEnds, passRunning_eq_true.mpr htaken, advances_iff.mpr hadv, decide_eq_true hdone]
      rfl)
    obtain ⟨honly, holz, hraised⟩ := closeRecords_of_none (ns := closing) hunits
    have hfold : closing.foldl (fun s n => closeRecord n s) s
        = s.olz.taken.foldl (fun s t => if t.2 then closeRecord t.1 s else s) s := by
      rw [List.foldl_map, List.foldl_filter]
    have hend : endPass s = (if (withPassOver (closing.foldl (fun s n => closeRecord n s) s)).canStartPass
        then startPass (withPassOver (closing.foldl (fun s n => closeRecord n s) s))
        else withPassOver (closing.foldl (fun s n => closeRecord n s) s)) := by
      rw [hfold]
      rfl
    rw [hend] at hexec
    generalize closing.foldl (fun s n => closeRecord n s) s = u at *
    have hsst : u.sst = s.sst := honly .sst (by simp)
    have hover : (withPassOver u).olz = { s.olz with
        log := s.olz.log.map fun x => if x.number ∈ closing then { x with state := .closed } else x
        closedOrder := s.olz.closedOrder ++ closing, taken := [], paused := false } := by
      rw [withPassOver, holz]
      rfl
    have hpassed : OnlyChanges [.olz, .attn] s (withPassOver u) := honly.trans ((only_olz _ u).mono (by simp))
    have hadvance : Advances (withPassOver u) := by rwa [Advances, show (withPassOver u).sst = s.sst from hsst]
    by_cases hsettle : s.olz.settle = []
    · have hnone : (withPassOver u).canStartPass = false := by simp [State.canStartPass, hover, hsettle]
      rw [hnone, if_neg Bool.false_ne_true] at hexec
      exact happens_done hexec hpassed ⟨hover.trans (if_pos hsettle).symm, hraised⟩
    · have hnext : (withPassOver u).canStartPass = true :=
        canStartPass_of hadvance rfl (by rw [hover]; exact hsettle)
      rw [hnext, if_pos rfl] at hexec
      refine happens_done hexec (hpassed.trans ((startPass_only _).mono (by simp))) ⟨?_, hraised⟩
      refine ((startPass_olz (withPassOver u)).trans ?_).trans (if_neg hsettle).symm
      unfold passStarted State.record
      rw [hover]

end Sys2Proof.Proofs

/-! PROOFS. The step, and the readings of the line-up, the sources, the matrix and the carrier (R4, R15, R26, R39, R52,
R55). -/

namespace Sys2Proof.Proofs
open Sys2Proof Sys2Proof.Machine Sys2Proof.Laws

/-! ## The step -/

/-- Settles O1: what the step's second branch says. -/
theorem stepRunsFrontCommand : Obligations.StepRunsFrontCommand := by
  unfold Obligations.StepRunsFrontCommand
  intro c rest s
  rfl

/-- Settles O2: what the step's first branch says. -/
theorem stepIdlesOnEmptyQueue : Obligations.StepIdlesOnEmptyQueue := by
  unfold Obligations.StepIdlesOnEmptyQueue
  intro s hempty
  rw [step, hempty]

/-! ## Reply fields -/

theorem fOpt_eq {α : Type} (f : α → Field) (o : Option α) : fOpt f o = o.elim (fWord "-") f := by
  cases o <;> rfl

/-- Flags that stand together as one field. -/
theorem flatten_map_fFlag (f : Nat → Bool) (ks : List Nat) :
    (ks.map fun k => fFlag (f k)).flatten = ks.map fun k => Piece.num (if f k then 1 else 0) := by
  induction ks with
  | nil => rfl
  | cons k ks ih => rw [List.map_cons, List.flatten_cons, ih]; rfl

/-! ## Slots and sources -/

theorem slotReadVerb_eq (args : List Text) (s : State) :
    slotReadVerb args s = (one (argNum 1 80) args).elim (.err .args) fun k => .ok (slotFields (s.slot k)) := by
  rcases args with _ | ⟨a, _ | ⟨b, rest⟩⟩
  · rfl
  · cases hk : argNum 1 80 a <;> simp [slotReadVerb, argSlot, one, hk]
  · rfl

theorem sourceReadVerb_eq (args : List Text) (s : State) :
    sourceReadVerb args s = (one (argNum 0 47) args).elim (.err .args) fun k =>
      .ok [fWord (sourceKindWord (s.source k).cfg.kind), fFlag (s.source k).cfg.monitored,
        fWord (s.source k).presence.word, fNum (s.source k).misses, fNum (s.source k).goods] := by
  rcases args with _ | ⟨a, _ | ⟨b, rest⟩⟩
  · rfl
  · cases hk : argNum 0 47 a <;> simp [sourceReadVerb, argSource, one, hk]
  · rfl

/-- Settles O14: the replies are the slot's fields and the source's, read as the record stands. -/
theorem slotAndSourceReadings : Obligations.SlotAndSourceReadings := by
  unfold Obligations.SlotAndSourceReadings
  refine ⟨fun l tag args s h => ⟨fun hbad => ?_, fun a k hargs hk => ?_⟩,
    fun l tag args s h => ⟨fun hbad => ?_, fun a k hargs hk => ?_⟩, fun l tag s h => ?_⟩
  · exact answers_of_read rfl h (by rw [slotReadVerb_eq, one_eq_none.mpr hbad]; rfl)
  · refine answers_of_read rfl h ?_
    have hone : one (argNum 1 80) args = some k := one_eq_some.mpr ⟨a, hargs, hk⟩
    rw [slotReadVerb_eq, hone, Option.elim_some, slot_popLine, slotFields]
    cases (s.slot k).cfg.fallback <;> rfl
  · exact answers_of_read rfl h (by rw [sourceReadVerb_eq, one_eq_none.mpr hbad]; rfl)
  · have hone : one (argNum 0 47) args = some k := one_eq_some.mpr ⟨a, hargs, hk⟩
    exact answers_of_read rfl h (by rw [sourceReadVerb_eq, hone]; rfl)
  · refine answers_of_read rfl h (congrArg (fun f => Reply.ok [(List.range 48).map f]) (funext fun k => ?_))
    show Piece.word (s.source k).letter = _
    unfold Source.letter
    cases (s.source k).cfg.monitored
    · rfl
    · cases (s.source k).presence <;> rfl

/-! ## Events, the matrix, strays and the carrier -/

theorem eventReadVerb_eq (args : List Text) (s : State) :
    eventReadVerb args s = (one (fun a => (argNum 1 255 a).bind s.findEvent) args).elim (.err .args) fun e =>
      .ok (eventFields e.1 e.2) := by
  rcases args with _ | ⟨a, _ | ⟨b, rest⟩⟩
  · rfl
  · cases he : (argNum 1 255 a).bind s.findEvent <;> simp [eventReadVerb, argId, one, he]
  · rfl

/-- What the first element adds to a filtered and mapped list. -/
theorem map_filter_cons {α β : Type} (f : α → β) (p : α → Bool) (x : α) (l : List α) :
    ((x :: l).filter p).map f = (if p x then [f x] else []) ++ (l.filter p).map f := by
  rw [List.filter_cons]
  split <;> rfl

/-- The letters of the marks that are set. -/
theorem readyLetters_eq (m : Marks) :
    ([Sender.alert, .carousel, .authorize, .poll, .refresh].filter m.ready).map (fun x => Piece.word x.letter) =
      (if m.alert then [Piece.word "A"] else []) ++ (if m.carousel then [.word "C"] else [])
        ++ (if m.authorize.isSome then [.word "Z"] else []) ++ (if m.poll.isSome then [.word "P"] else [])
        ++ (if m.refresh.isSome then [.word "F"] else []) := by
  simp only [map_filter_cons, List.filter_nil, List.map_nil, List.append_nil, ← List.append_assoc]
  rfl

theorem marksField_eq (m : Marks) : marksField m =
    let set := (if m.alert then [Piece.word "A"] else []) ++ (if m.carousel then [.word "C"] else [])
      ++ (if m.authorize.isSome then [.word "Z"] else []) ++ (if m.poll.isSome then [.word "P"] else [])
      ++ (if m.refresh.isSome then [.word "F"] else [])
    if set = [] then fWord "-" else set := by
  simp only [marksField, List.isEmpty_iff, ← readyLetters_eq, List.map_eq_nil_iff, fDash, fWord]

/-- Settles O15: each reply is read off the record, branch by branch; a re-armed capture is empty. -/
theorem eventMatrixStrayCarrierVerbs : Obligations.EventMatrixStrayCarrierVerbs := by
  unfold Obligations.EventMatrixStrayCarrierVerbs
  refine ⟨⟨fun l tag args s h => ⟨fun hbad => ?_, fun a id k e hargs hid he => ?_⟩, fun l tag s h => ?_⟩,
    ⟨fun l tag s h => ?_, fun l tag s h => ⟨fun hnone => ?_, fun x hx => ?_⟩, fun l tag s h => ?_⟩, fun l tag s h => ?_⟩
  · refine answers_of_read rfl h ?_
    have hone : one (fun a => (argNum 1 255 a).bind (popLine l s).findEvent) args = none :=
      one_eq_none.mpr fun a hargs => Option.bind_eq_none_iff.mpr fun id hid => hbad a id hargs hid
    rw [eventReadVerb_eq, hone]
    rfl
  · refine answers_of_read rfl h ?_
    have hone : one (fun a => (argNum 1 255 a).bind (popLine l s).findEvent) args = some (k, e) :=
      one_eq_some.mpr ⟨a, hargs, Option.bind_eq_some_iff.mpr ⟨id, hid, he⟩⟩
    rw [eventReadVerb_eq, hone]
    rfl
  · refine answers_of_read rfl h (congrArg (fun f => Reply.ok (s.eventEntries.map f)) (funext fun e => ?_))
    cases hstate : e.2.state <;> simp [EventState.letter]
  · refine answers_of_read rfl h ?_
    show matrixStatusVerb [] s = _
    rw [matrixStatusVerb]
    rcases hflight : s.mxp.flight with _ | (_ | ⟨k, src, issue⟩) <;> cases s.mxp.last <;> rfl
  · exact answers_of_read rfl h (show strayReadVerb [] s = _ by rw [strayReadVerb, hnone])
  · refine answers_of_read rfl h (show strayReadVerb [] s = _ from ?_)
    rw [strayReadVerb, hx]
    cases hstation : x.station <;> simp [fOpt, hstation, fDash, fWord]
  · exact accepts_of_effect rfl h rfl (only_urx ⟨none⟩ _) (by simp) rfl
  · refine answers_of_read rfl h (show carrierStatusVerb [] s = _ from ?_)
    rw [carrierStatusVerb, marksField_eq]
    cases s.csc.windows <;> rcases s.csc.granted with _ | (_ | _ | _ | _ | _) <;> rfl

end Sys2Proof.Proofs

/-! PROOFS. A verb on a lane that does not carry it (R166), the protection flags (R64) and the carousel's verbs (R22,
R23). -/

namespace Sys2Proof.Proofs
open Sys2Proof Sys2Proof.Machine Sys2Proof.Laws

/-! ## The lanes that carry a verb -/

section WrongLane

variable {c : Instr} {v : Verb} {l : Lane} {tag : Byte} {args : List Text} {why : Reason} {s : State}

theorem refuses_of_answers (hc : Answers c l tag (.err why) s) : Refuses c l tag why s :=
  ⟨_, hc, replied_of_office (Agree.refl ..), ((popLine_only l s).mono (by simp)).trans ((emit_only _ _).mono (by simp)),
    trivial⟩

/-- A verb whose reply leaves at once, on a wrong lane. -/
theorem refuses_dispatch_of_lane {act : List Text → State → State × Reply} (hc : exec c s = dispatch v l act s)
    (hd : s.dispatching l v = some (tag, args)) (hl : v.carriedOn l = false) : Refuses c l tag .lane s := by
  have hdone : exec c s = done (answered l tag (.err .lane) s) := by
    rw [hc, dispatch, hd]
    simp only [hl, Bool.false_eq_true, if_false]
    rfl
  obtain ⟨hreplied, honly⟩ := refused_of_answered l tag (.err .lane) s
  exact ⟨_, hdone, hreplied, honly, trivial⟩

/-- A verb that reads, on a wrong lane. -/
theorem refuses_answer_of_lane {read : List Text → State → Reply} (hc : exec c s = answer v l read s)
    (hd : s.dispatching l v = some (tag, args)) (hl : v.carriedOn l = false) : Refuses c l tag .lane s := by
  refine refuses_of_answers (hc.trans ?_)
  rw [answer, hd]
  simp only [hl, Bool.false_eq_true, if_false]
  rfl

/-- A verb whose reply comes later, on a wrong lane. -/
theorem refuses_dispatchDeferred_of_lane {refusal : List Text → State → Option Reason} {start : Byte → State → State}
    (hc : exec c s = dispatchDeferred v l refusal start s) (hd : s.dispatching l v = some (tag, args))
    (hl : v.carriedOn l = false) : Refuses c l tag .lane s := by
  have hdone : exec c s = done (answered l tag (.err .lane) s) := by
    rw [hc, dispatchDeferred, hd]
    simp only [hl, Bool.false_eq_true, if_false]
    rfl
  obtain ⟨hreplied, honly⟩ := refused_of_answered l tag (.err .lane) s
  exact ⟨_, hdone, hreplied, honly, trivial⟩

end WrongLane

/-- Settles O4: the lane is judged before the verb's owner acts, in each of the three ways a verb is answered; every
lane carries IDENTIFY. -/
theorem wrongLaneAndUnknownVerb : Obligations.WrongLaneAndUnknownVerb := by
  unfold Obligations.WrongLaneAndUnknownVerb
  refine ⟨fun v l tag args s hd hl => ?_, fun l ln s hhead hunknown => ?_⟩
  · cases v with
    | identify => exact absurd hl (by simp [Verb.carriedOn])
    | settingsSave | settingsClear => exact refuses_dispatchDeferred_of_lane rfl hd hl
    | slotRead | eventRead | eventList | carouselRead | sourceRead | sourceList | matrixStatus | strayRead
    | carrierStatus | protectRead | dropRead | dropList | authStatus | refreshStatus | intakeStatus | unitRead
    | unitList | pollStatus | outageRead | outageList | journalRead | journalStatus | timeStatus | attnRead
    | status | paramRead | settingsStatus => exact refuses_answer_of_lane rfl hd hl
    | _ => exact refuses_dispatch_of_lane rfl hd hl
  · show execUnknownVerb l s = _
    rw [execUnknownVerb, hhead]
    exact if_pos hunknown

/-! ## The protection flags -/

theorem guardVerb_of_unread {on : Bool} {args : List Text} {s : State} (hs : s.saving = false)
    (ha : one (argNum 0 7) args = none) : guardVerb on args s = refuse .args s := by
  rcases args with _ | ⟨a, _ | ⟨b, rest⟩⟩
  · simp [guardVerb, hs]
  · have hnone : argNum 0 7 a = none := ha
    simp [guardVerb, hs, hnone]
  · simp [guardVerb, hs]

theorem guardVerb_of_args {on : Bool} {args : List Text} {b : Nat} {s : State} (hs : s.saving = false)
    (ha : one (argNum 0 7) args = some b) : guardVerb on args s = accept (setGuard on b s) := by
  obtain ⟨a, rfl, hb⟩ := one_eq_some.mp ha
  simp [guardVerb, hs, hb]

/-- Both verbs of the protection flags, parsed and carried out. -/
theorem parsed_guardVerb {c : Instr} {v : Verb} {on : Bool} {l : Lane} {tag : Byte} {args : List Text} {s : State}
    (hc : exec c s = dispatch v l (guardVerb on) s) (h : Takes v l tag args s) :
    Parsed c l tag s (one (argNum 0 7) args) fun b => Accepts c l tag (.ok []) s [.dtb] fun t =>
      t.dtb.drops = s.dtb.drops ∧ ∀ j, t.guarded j = if j = b then on else s.guarded j := by
  refine parsed_of_act hc h (fun hs => by simp [guardVerb, hs]) guardVerb_of_unread fun b hs ha => ?_
  exact accepts_of_effect hc h (guardVerb_of_args hs ha) (setGuard_only on b _) (by simp)
    ⟨rfl, guarded_setGuard (popLine l s) on b⟩

/-- Settles O16: a flag's write is a table write, and the eight digits are its reads. -/
theorem protectVerbs : Obligations.ProtectVerbs := by
  unfold Obligations.ProtectVerbs
  refine ⟨fun on l tag args s h => ?_, fun l tag args s hd hl => ?_, fun l tag s h => ?_⟩
  · have hparsed : Parsed (if on then .protectSet l else .protectClear l) l tag s (one (argNum 0 7) args) fun b =>
        Accepts (if on then .protectSet l else .protectClear l) l tag (.ok []) s [.dtb] fun t =>
          t.dtb.drops = s.dtb.drops ∧ ∀ j, t.guarded j = if j = b then on else s.guarded j := by
      cases on with
      | true => exact parsed_guardVerb rfl h
      | false => exact parsed_guardVerb rfl h
    obtain ⟨hbusy, hargs, hok⟩ := hparsed
    exact ⟨hbusy, fun hs hbad => hargs hs (one_eq_none.mpr hbad),
      fun a b hs harg hb => hok b hs (one_eq_some.mpr ⟨a, harg, hb⟩)⟩
  · exact refuses_dispatch_of_lane rfl hd (by simpa [Verb.carriedOn] using hl)
  · refine answers_of_read rfl h (congrArg (fun f => Reply.ok [f]) ?_)
    exact flatten_map_fFlag s.guarded (List.range 8)

/-! ## The carousel -/

theorem carouselModeVerb_of_unread {args : List Text} {s : State} (hs : s.saving = false)
    (ha : argsCarouselMode args = none) : carouselModeVerb args s = refuse .args s := by
  simp [carouselModeVerb, hs, ha]

theorem carouselModeVerb_of_args {args : List Text} {m : CarouselMode} {s : State} (hs : s.saving = false)
    (ha : argsCarouselMode args = some m) : carouselModeVerb args s = accept (s.setCarousel m) := by
  simp [carouselModeVerb, hs, ha]

/-- A text of the carousel, of at most 96 characters (R23). -/
abbrev argCarouselText (a : Text) : Option Text := (argText a).filter fun x => decide (x.length ≤ 96)

theorem carouselTextVerb_of_unread {args : List Text} {s : State} (hs : s.saving = false)
    (ha : one argCarouselText args = none) : carouselTextVerb args s = refuse .args s := by
  rcases args with _ | ⟨a, _ | ⟨b, rest⟩⟩
  · simp [carouselTextVerb, hs]
  · have hnone : argCarouselText a = none := ha
    simp only [carouselTextVerb, hs, hnone, Bool.false_eq_true, if_false]
  · simp [carouselTextVerb, hs]

theorem carouselTextVerb_of_args {args : List Text} {x : Text} {s : State} (hs : s.saving = false)
    (ha : one argCarouselText args = some x) :
    carouselTextVerb args s = accept { s with crs := { s.crs with text := x } } := by
  obtain ⟨a, rfl, hx⟩ := one_eq_some.mp ha
  simp only [carouselTextVerb, hs, hx, Bool.false_eq_true, if_false]

theorem carouselEnableVerb_of_unread {args : List Text} {s : State} (hs : s.saving = false)
    (ha : two (argNum 0 15) argFlag args = none) : carouselEnableVerb args s = refuse .args s := by
  rcases args with _ | ⟨a, _ | ⟨b, _ | ⟨c, rest⟩⟩⟩
  · simp [carouselEnableVerb, hs]
  · simp [carouselEnableVerb, hs]
  · cases he : argNum 0 15 a with
    | none => simp [carouselEnableVerb, hs, he]
    | some e =>
      have hf : argFlag b = none := by simpa [two, he] using ha
      simp [carouselEnableVerb, hs, he, hf]
  · simp [carouselEnableVerb, hs]

/-- The enabled flag of an entry, written. -/
def withEntry (e : Nat) (on : Bool) (s : State) : State :=
  { s with crs := { s.crs with enables := Table.set (fun _ => true) s.crs.enables e on } }

theorem entryEnabled_withEntry (e : Nat) (on : Bool) (s : State) (k : Nat) :
    (withEntry e on s).entryEnabled k = if k = e then on else s.entryEnabled k := get_set _ _ _ _ _

theorem carouselEnableVerb_of_args {args : List Text} {e : Nat} {on : Bool} {s : State} (hs : s.saving = false)
    (ha : two (argNum 0 15) argFlag args = some (e, on)) :
    carouselEnableVerb args s = accept (withEntry e on s) := by
  obtain ⟨a, b, rfl, he, hf⟩ := two_eq_some.mp ha
  simp [carouselEnableVerb, hs, he, hf, withEntry]

/-- Settles O28: each verb writes the one field of CRS its arguments name. -/
theorem carouselVerbs : Obligations.CarouselVerbs := by
  unfold Obligations.CarouselVerbs
  refine ⟨fun l tag args s h => ?_, fun l tag args s h => ?_, fun l tag args s h => ?_⟩
  · refine parsed_of_act rfl h (fun hs => by simp [carouselModeVerb, hs]) carouselModeVerb_of_unread fun m hs ha => ?_
    exact accepts_of_effect rfl h (carouselModeVerb_of_args hs ha) (only_crs _ _) (by simp) (by cases m <;> rfl)
  · refine parsed_of_act rfl h (fun hs => by simp [carouselTextVerb, hs]) carouselTextVerb_of_unread fun x hs ha => ?_
    exact accepts_of_effect rfl h (carouselTextVerb_of_args hs ha) (only_crs _ _) (by simp) rfl
  · refine parsed_of_act rfl h (fun hs => by simp [carouselEnableVerb, hs]) carouselEnableVerb_of_unread
      fun (e, on) hs ha => ?_
    exact accepts_of_effect rfl h (carouselEnableVerb_of_args hs ha) (only_crs _ _) (by simp)
      ⟨rfl, entryEnabled_withEntry e on (popLine l s)⟩

end Sys2Proof.Proofs

/-! PROOFS. The readings of the drops, the plant, the outages, the journal and the engines (R77, R86, R95, R102, R118,
R137, R138, R145, R147, R181, R23). -/

namespace Sys2Proof.Proofs
open Sys2Proof Sys2Proof.Machine Sys2Proof.Laws

/-! ## Lists of numbers -/

/-- The fields of a list: the numbers found, and where a further list starts (log 28). -/
theorem listFrom_fields (p : Nat → Bool) (keys : List Nat) (start last : Nat) (f : Nat → List Field) :
    ((listFrom p keys start last).1.map f).flatten ++ [fOpt fNum (listFrom p keys start last).2] =
      let found := (keys.filter fun k => start ≤ k && p k).take 16
      (found.map f).flatten ++ [match found[15]? with
        | none => fWord "-"
        | some k => if k < last then fNum (k + 1) else fWord "-"] := by
  unfold listFrom
  dsimp only
  cases ((keys.filter fun k => start ≤ k && p k).take 16)[15]? with
  | none => rfl
  | some k => by_cases hk : k < last <;> simp [hk, fOpt, fDash, fWord]

/-- A list of numbers that stand alone. -/
theorem listFrom_numbers (p : Nat → Bool) (keys : List Nat) (start last : Nat) :
    (listFrom p keys start last).1.map fNum ++ [fOpt fNum (listFrom p keys start last).2] =
      let found := (keys.filter fun k => start ≤ k && p k).take 16
      found.map fNum ++ [match found[15]? with
        | none => fWord "-"
        | some k => if k < last then fNum (k + 1) else fWord "-"] := by
  have h := listFrom_fields p keys start last fun k => [fNum k]
  simpa only [← List.flatMap_def, ← List.map_eq_flatMap] using h

/-! ## Drops -/

theorem dropReadVerb_of_drop {a : Text} {d : Nat} (ha : argNum 0 2047 a = some d) (s : State) :
    dropReadVerb [a] s = .ok (dropFields s d) := by
  simp [dropReadVerb, argDrop, ha]

theorem argDropFilter_of_service {a : Text} {v : Service} (ha : argWordOf serviceWords a = some v) :
    argDropFilter a = some fun r => r.service == v := by
  rw [argDropFilter, ha]

theorem argDropFilter_of_link {a : Text} (ha : argWordOf serviceWords a = none) :
    argDropFilter a = (argWordOf linkWords a).map fun k r => r.link == some k := by
  rw [argDropFilter, ha]

theorem dropListVerb_of_filter {a b : Text} {p : Drop → Bool} {start : Nat} (ha : argDropFilter a = some p)
    (hb : argNum 0 2047 b = some start) (s : State) :
    dropListVerb [a, b] s = .ok ((listFrom (fun d => p (s.drop d)) (List.range 2048) start 2047).1.map fNum
      ++ [fOpt fNum (listFrom (fun d => p (s.drop d)) (List.range 2048) start 2047).2]) := by
  simp [dropListVerb, argDrop, ha, hb]

theorem dropListVerb_of_unread {a : Text} (ha : argDropFilter a = none) (b : Text) (s : State) :
    dropListVerb [a, b] s = .err .args := by
  simp [dropListVerb, ha]

/-- Settles O17: the drop's fields, and the list over the 2048 numbers with where it goes on. -/
theorem dropReadings : Obligations.DropReadings := by
  unfold Obligations.DropReadings
  refine ⟨fun l tag a d s h ha => ?_, fun l tag a b p start s h hb hp => ?_, fun l tag a b s h hservice hlink => ?_⟩
  · exact answers_of_read rfl h (dropReadVerb_of_drop ha _)
  · intro found
    have hfilter : argDropFilter a = some p := by
      rcases hp with ⟨v, hv, rfl⟩ | ⟨hnone, k, hk, rfl⟩
      · exact argDropFilter_of_service hv
      · rw [argDropFilter_of_link hnone, hk, Option.map_some]
    refine answers_of_read rfl h ((dropListVerb_of_filter hfilter hb _).trans ?_)
    revert found
    generalize List.range 2048 = keys
    exact congrArg Reply.ok (listFrom_numbers (fun d => p (s.drop d)) keys start 2047)
  · refine answers_of_read rfl h (dropListVerb_of_unread ?_ b _)
    rw [argDropFilter_of_link hservice, hlink, Option.map_none]

/-! ## Units and outages -/

theorem unitReadVerb_eq (args : List Text) (s : State) :
    unitReadVerb args s = (one (argNum 0 511) args).elim (.err .args) fun u => .ok (unitFields (s.unit u)) := by
  rcases args with _ | ⟨a, _ | ⟨b, rest⟩⟩
  · rfl
  · cases hu : argNum 0 511 a <;> simp [unitReadVerb, argUnit, one, hu]
  · rfl

theorem fConditions_eq (r : PlantUnit) : fConditions r =
    match r.power, r.level with
    | false, false => fWord "-"
    | true, false => fWord "P"
    | false, true => fWord "L"
    | true, true => [.word "P", .word "L"] := by
  unfold fConditions
  cases r.power <;> cases r.level <;> rfl

theorem unitListVerb_of_filter {a b : Text} {p : PlantUnit → Bool} {start : Nat} (ha : argUnitFilter a = some p)
    (hb : argNum 0 511 b = some start) (s : State) :
    unitListVerb [a, b] s = .ok ((listFrom (fun u => p (s.unit u)) s.unitKeys start 511).1.map fNum
      ++ [fOpt fNum (listFrom (fun u => p (s.unit u)) s.unitKeys start 511).2]) := by
  simp [unitListVerb, argUnit, ha, hb]

theorem unitListVerb_of_unread {a : Text} (ha : argUnitFilter a = none) (b : Text) (s : State) :
    unitListVerb [a, b] s = .err .args := by
  simp [unitListVerb, ha]

theorem outageReadVerb_eq (args : List Text) (s : State) :
    outageReadVerb args s = (one (argNum 1 65535) args).elim (.err .args) fun n =>
      (s.record n).elim (.err .range) fun o => .ok (outageFields o) := by
  rcases args with _ | ⟨a, _ | ⟨b, rest⟩⟩
  · rfl
  · cases hn : argNum 1 65535 a with
    | none => simp [outageReadVerb, argOutage, one, hn]
    | some n => cases ho : s.record n <;> simp [outageReadVerb, argOutage, one, hn, ho]
  · rfl

theorem outageListVerb_eq (a b : Text) (s : State) :
    outageListVerb [a, b] s = (two (argWordOf outageStateWords) (argNum 1 65535) [a, b]).elim (.err .args)
      fun (st, start) => .ok (outageListFields st start s) := by
  cases hst : argWordOf outageStateWords a with
  | none => simp [outageListVerb, two, hst]
  | some st => cases hn : argNum 1 65535 b <;> simp [outageListVerb, argOutage, two, hst, hn]

/-- OUTAGE.LIST's fields, with the places of its own helpers spelt out. -/
theorem outageListFields_eq (st : OutageState) (start : Nat) (s : State) : outageListFields st start s =
    [fNum s.olz.log.length, fNum (64 - s.olz.log.length + (s.olz.log.filter fun o => o.state == .closed).length),
      fNum s.olz.nextNumber, fNum s.olz.settle.length,
      if s.olz.taken = [] then fWord "-" else fNum s.olz.cursor ++ (if s.olz.paused then [.word "P"] else [])]
    ++ ((listFrom (fun n => (s.record n).any fun o => o.state == st) s.numbers start 65535).1.map fun n =>
        [fNum n, fNum (((s.record n).map fun o => o.root).getD 0)]).flatten
    ++ [fOpt fNum (listFrom (fun n => (s.record n).any fun o => o.state == st) s.numbers start 65535).2] := by
  unfold outageListFields State.passRunning
  cases s.olz.taken <;> rfl

/-- Settles O18: every reply is read off the record, the pass and the poll, branch by branch. -/
theorem unitAndOutageReadings : Obligations.UnitAndOutageReadings := by
  unfold Obligations.UnitAndOutageReadings
  refine ⟨⟨fun l tag args s h => ⟨fun hbad => ?_, fun a u hargs hu hnone => ?_, fun a u hargs hu hkind => ?_⟩,
    fun l tag a b p start s h hb hp => ?_, fun l tag a b s h hcond hstate => ?_, fun l tag s h => ?_⟩,
    fun l tag args s h => ⟨fun hbad => ?_, fun a n hargs hn hnone => ?_, fun a n o hargs hn ho => ?_⟩,
    fun l tag a b st start s h hst hstart => ?_, fun l tag a b s h hbad => ?_⟩
  · exact answers_of_read rfl h (by rw [unitReadVerb_eq, one_eq_none.mpr hbad]; rfl)
  · have hone : one (argNum 0 511) args = some u := one_eq_some.mpr ⟨a, hargs, hu⟩
    refine answers_of_read rfl h ?_
    rw [unitReadVerb_eq, hone]
    show Reply.ok (unitFields (s.unit u)) = _
    simp [unitFields, PlantUnit.defined, hnone]
  · have hone : one (argNum 0 511) args = some u := one_eq_some.mpr ⟨a, hargs, hu⟩
    refine answers_of_read rfl h ?_
    rw [unitReadVerb_eq, hone]
    show Reply.ok (unitFields (s.unit u)) = _
    have hdefined : (s.unit u).defined = true := by simpa [PlantUnit.defined] using hkind
    simp only [unitFields, hdefined, Bool.not_true, Bool.false_eq_true, if_false, fConditions_eq]
    cases (s.unit u).last <;> cases (s.unit u).power <;> cases (s.unit u).level <;> rfl
  · intro found
    have hfilter : argUnitFilter a = some p := by
      rcases hp with ⟨hcond, rfl⟩ | ⟨hcond, st, hst, rfl⟩
      · exact if_pos hcond
      · exact (if_neg hcond).trans (congrArg (Option.map _) hst)
    exact answers_of_read rfl h ((unitListVerb_of_filter hfilter hb _).trans (congrArg Reply.ok (listFrom_numbers ..)))
  · exact answers_of_read rfl h (unitListVerb_of_unread ((if_neg hcond).trans (congrArg (Option.map _) hstate)) b _)
  · refine answers_of_read rfl h (show pollStatusVerb [] s = _ from ?_)
    rw [pollStatusVerb]
    cases s.ppl.running <;> cases s.ppl.poll <;> rfl
  · exact answers_of_read rfl h (by rw [outageReadVerb_eq, one_eq_none.mpr hbad]; rfl)
  · have hone : one (argNum 1 65535) args = some n := one_eq_some.mpr ⟨a, hargs, hn⟩
    have hrecord : (popLine l s).record n = none := hnone
    exact answers_of_read rfl h (by rw [outageReadVerb_eq, hone, Option.elim_some, hrecord]; rfl)
  · have hone : one (argNum 1 65535) args = some n := one_eq_some.mpr ⟨a, hargs, hn⟩
    have hrecord : (popLine l s).record n = some o := ho
    exact answers_of_read rfl h (by rw [outageReadVerb_eq, hone, Option.elim_some, hrecord]; rfl)
  · intro found
    have htwo : two (argWordOf outageStateWords) (argNum 1 65535) [a, b] = some (st, start) :=
      two_eq_some.mpr ⟨a, b, rfl, hst, hstart⟩
    refine answers_of_read rfl h ?_
    rw [outageListVerb_eq, htwo]
    refine congrArg Reply.ok ((outageListFields_eq ..).trans ?_)
    rw [List.append_assoc, List.append_assoc]
    exact congrArg (_ ++ ·) (listFrom_fields ..)
  · have htwo : two (argWordOf outageStateWords) (argNum 1 65535) [a, b] = none := by
      refine Option.eq_none_iff_forall_ne_some.mpr fun x hx => ?_
      obtain ⟨a', b', hargs, hst, hn⟩ := two_eq_some.mp (show two _ _ [a, b] = some (x.1, x.2) from hx)
      cases hargs
      exact hbad.elim (fun hnone => nomatch hnone.symm.trans hst) fun hnone => nomatch hnone.symm.trans hn
    exact answers_of_read rfl h (by rw [outageListVerb_eq, htwo]; rfl)

end Sys2Proof.Proofs

/-! PROOFS. The readings of the journal and of the engines (R23, R86, R95, R102, R145, R147, R181), the output queue's
lines (R167, R169), and what stands at power-on reset. -/

namespace Sys2Proof.Proofs
open Sys2Proof Sys2Proof.Machine Sys2Proof.Laws

/-! ## The journal -/

theorem journalReadVerb_eq (args : List Text) (s : State) :
    journalReadVerb args s = (two argWord (argNum 1 8) args).elim (.err .args) fun x =>
      match recordsFrom s x.1 x.2 with
      | none => .err .range
      | some [] => .ok []
      | some (r :: rs) => .ok [List.intercalate [.word ";"] ((r :: rs).map recordField)] := by
  rcases args with _ | ⟨a, _ | ⟨b, _ | ⟨c, rest⟩⟩⟩
  · rfl
  · rfl
  · cases hn : argWord a with
    | none => simp [journalReadVerb, two, hn]
    | some n => cases hcount : argNum 1 8 b <;> simp only [journalReadVerb, two, hn, hcount] <;> rfl
  · rfl

theorem recordsFrom_of_held {n : Word} {i : Nat} {s : State} (hn : heldIndex s n = some i) (count : Nat) :
    recordsFrom s n count = some ((s.bjn.held.drop i).take count) := by
  rw [recordsFrom, hn]

theorem recordsFrom_of_not_held {n : Word} {s : State} (hn : heldIndex s n = none) (count : Nat) :
    recordsFrom s n count = if n = s.bjn.nextSeq then some [] else none := by
  rw [recordsFrom, hn]

/-- A number in the held range: at least the record it names is read, since a count is at least 1. -/
theorem journalReadVerb_of_held {args : List Text} {n : Word} {count i : Nat} {s : State}
    (ha : two argWord (argNum 1 8) args = some (n, count)) (hcount : 1 ≤ count) (hn : heldIndex s n = some i)
    (hi : i < s.bjn.held.length) : journalReadVerb args s =
      .ok [List.intercalate [.word ";"] (((s.bjn.held.drop i).take count).map recordField)] := by
  have hne : (s.bjn.held.drop i).take count ≠ [] := by
    rw [ne_eq, List.take_eq_nil_iff, List.drop_eq_nil_iff]
    omega
  obtain ⟨r, rs, hrecords⟩ := List.exists_cons_of_ne_nil hne
  rw [journalReadVerb_eq, ha, Option.elim_some]
  simp only [recordsFrom_of_held hn, hrecords]

theorem journalReadVerb_of_not_held {args : List Text} {n : Word} {count : Nat} {s : State}
    (ha : two argWord (argNum 1 8) args = some (n, count)) (hn : heldIndex s n = none) :
    journalReadVerb args s = if n = s.bjn.nextSeq then .ok [] else .err .range := by
  rw [journalReadVerb_eq, ha, Option.elim_some]
  by_cases hnext : n = s.bjn.nextSeq
  · simp only [recordsFrom_of_not_held hn, if_pos hnext]
  · simp only [recordsFrom_of_not_held hn, if_neg hnext]

theorem le_of_argNum {lo hi n : Nat} {t : Text} (h : argNum lo hi t = some n) : lo ≤ n := by
  obtain ⟨-, hfits⟩ := Option.filter_eq_some_iff.mp h
  simp only [Bool.and_eq_true, decide_eq_true_eq] at hfits
  exact hfits.1

/-- Outside the two ends of a drain, the remaining count stands beside the cursor (log 3). -/
theorem drainFields_of_ne_zero {s : State} (h : s.bjn.drainLeft ≠ some 0) : drainFields s =
    match s.bjn.drainLeft with
    | none => [fWord "-"]
    | some n => [fNum s.bjn.drainCursor, fNum n] := by
  unfold drainFields
  rcases hleft : s.bjn.drainLeft with _ | _ | n
  · rfl
  · exact absurd hleft h
  · rfl

/-- Settles O19: a held number is found at its distance behind the oldest record. -/
theorem journalReadings : Obligations.JournalReadings := by
  unfold Obligations.JournalReadings
  refine ⟨fun l tag args s h => ⟨fun hbad => ?_, fun a b n count hargs hn hcount => ?_⟩, fun l tag s h hdrain => ?_⟩
  · have htwo : two argWord (argNum 1 8) args = none := by
      refine Option.eq_none_iff_forall_ne_some.mpr fun x hx => ?_
      obtain ⟨a, b, hargs, hn, hcount⟩ := two_eq_some.mp (show two _ _ args = some (x.1, x.2) from hx)
      exact nomatch (hbad a b x.1 hargs hn).symm.trans hcount
    exact answers_of_read rfl h (by rw [journalReadVerb_eq, htwo]; rfl)
  · have htwo : two argWord (argNum 1 8) args = some (n, count) := two_eq_some.mpr ⟨a, b, hargs, hn, hcount⟩
    refine ⟨fun o i ho hi hlt => ?_, fun hout => ?_⟩
    · subst hi
      have hindex : heldIndex (popLine l s) n = some (n - o.seq).toNat :=
        (heldIndex_of_first (s := popLine l s) ho n).trans (if_pos hlt)
      exact answers_of_read rfl h (journalReadVerb_of_held htwo (le_of_argNum hcount) hindex hlt)
    · have hindex : heldIndex (popLine l s) n = none := heldIndex_eq_none hout
      exact answers_of_read rfl h (journalReadVerb_of_not_held htwo hindex)
  · refine answers_of_read rfl h (show journalStatusVerb [] s = _ from ?_)
    rw [journalStatusVerb, drainFields_of_ne_zero hdrain]
    rfl

/-! ## The engines -/

theorem queueFields_eq (q : List QEntry) : queueFields q =
    if q = [] then [fWord "-"] else (q.take 8).map fun e => [.num e.drop] ++ if e.urgent then [.word "+"] else [] := by
  cases q <;> rfl

theorem effectiveMode_eq (s : State) : s.effectiveMode =
    if s.pin.mode = .normal ∧ 4096 - s.bjn.held.length ≤ 256 then .defer else s.pin.mode := by
  unfold State.effectiveMode State.free reserve
  cases hmode : s.pin.mode with
  | normal => by_cases hfree : 4096 - s.bjn.held.length ≤ 256 <;> simp [hfree, Nat.not_lt.mpr, Nat.lt_of_not_le]
  | defer => simp
  | refuse => simp

/-- Settles O23: each reply is read off the engine's own state. -/
theorem engineStatusReadings : Obligations.EngineStatusReadings := by
  unfold Obligations.EngineStatusReadings
  refine ⟨fun l tag s h => ?_, fun l tag s h => ?_, fun l tag s h => ?_, fun l tag s h => ?_, fun l tag s h => ?_⟩
  · refine answers_of_read rfl h (show authStatusVerb [] s = _ from ?_)
    rw [authStatusVerb, queueFields_eq]
    rfl
  · refine answers_of_read rfl h (show refreshStatusVerb [] s = _ from ?_)
    rw [refreshStatusVerb]
    cases s.rsw.outstanding <;> rfl
  · refine answers_of_read rfl h (show intakeStatusVerb [] s = _ from ?_)
    rw [intakeStatusVerb, effectiveMode_eq]
    rfl
  · refine answers_of_read rfl h (show settingsStatusVerb [] s = _ from ?_)
    rw [settingsStatusVerb]
    rcases s.sst.flash with _ | (_ | _ | _ | _) | _ <;> rfl
  · refine answers_of_read rfl h (show carouselReadVerb [] s = _ from ?_)
    rw [carouselReadVerb, flatten_map_fFlag]
    cases s.crs.mode <;> rfl

/-! ## The output queue -/

theorem one_le_freePlaces {s : State} (h : s.ofp.outQ.length + (if s.ofp.clearTag.isSome then 1 else 0) < 16) :
    1 ≤ s.freePlaces := by
  unfold State.freePlaces
  omega

theorem only_ofp {o : Ofp} {s : State} (h : o.attn = s.ofp.attn) : OnlyChanges [.office] s { s with ofp := o } :=
  fun p hp => by
    cases p with
    | office => simp at hp
    | attn => exact h
    | _ => rfl

/-- Settles O48: each of the three appends or frees its place; a notice names the announce set and announces it. -/
theorem linesSentAndAppended : Obligations.LinesSentAndAppended := by
  unfold Obligations.LinesSentAndAppended
  refine ⟨fun s => ?_, fun o s hheld hroom => ?_, fun o s hheld => ?_, fun s hdue hheld hroom => ?_⟩
  · exact ⟨_, rfl, OnlyChanges.mono (only_ofp rfl) (by simp), rfl⟩
  · refine ⟨{ s with ofp := { s.ofp with outQ := s.ofp.outQ ++ [o], held := none } }, ?_,
      OnlyChanges.mono (only_ofp rfl) (by simp), rfl⟩
    have hexec : exec .deferredReplyAppend s = execDeferredReplyAppend s := rfl
    rw [hexec, execDeferredReplyAppend, hheld]
    exact if_pos (one_le_freePlaces hroom)
  · refine if_neg ?_
    simp [State.noticePlaced, hheld]
  · obtain ⟨k, hk⟩ := hdue
    have hset : s.announceSet ≠ [] := List.ne_nil_of_mem (List.mem_filter.mpr ⟨mem_kindAll k, hk⟩)
    have hplaced : s.noticePlaced = true := by
      simp [State.noticePlaced, hset, hheld, one_le_freePlaces hroom]
    have honly := mapAttn_only Attn.noticed s.announceSet s
    have hoffice : { (s.mapAttn Attn.noticed s.announceSet).ofp with attn := [] } = { s.ofp with attn := [] } :=
      honly .office (by simp)
    refine ⟨_, if_pos hplaced, (honly.mono (by simp)).trans ((emit_only _ _).mono (by simp)), ?_, fun j => ?_, ?_⟩
    · exact congrArg (fun q : Ofp => q.outQ ++ [.notice s.announceSet]) hoffice
    · refine Eq.trans (attn_mapAttn (f := Attn.noticed) (fun _ => rfl) s.announceSet s j) ?_
      have hmem : j ∈ s.announceSet ↔ (s.attn j).due = true :=
        List.mem_filter.trans (and_iff_right (mem_kindAll j))
      simp only [hmem]
      rfl
    · exact congrArg (fun q : Ofp => { q with attn := s.ofp.attn, outQ := s.ofp.outQ }) hoffice

/-! ## Power-on reset -/

/-- Settles O6: every table is empty at power-on, so each record reads as the blank one. -/
theorem powerOnValues : Obligations.PowerOnValues := by
  unfold Obligations.PowerOnValues
  intro s
  refine ⟨rfl, rfl, rfl, rfl, fun l => by cases l <;> rfl, rfl, rfl, rfl, rfl, rfl, fun _ => rfl, rfl, rfl, rfl,
    rfl, rfl, rfl, rfl, rfl, rfl, rfl, rfl, fun _ => rfl, rfl, rfl, rfl, rfl, fun _ => rfl, fun _ => rfl, rfl, rfl,
    rfl, rfl, fun _ => rfl, rfl, rfl, rfl, rfl, rfl, rfl, rfl, fun _ => rfl, fun _ => rfl, rfl, rfl, rfl, rfl, rfl,
    rfl, rfl, rfl, rfl, fun _ => rfl, rfl, rfl, rfl, rfl, rfl, rfl, rfl, rfl, rfl, rfl, rfl, rfl, rfl, rfl, rfl⟩

/-- Settles O13: with every table empty and nothing queued, each invariant is a closed fact. -/
theorem resetIsSound : Obligations.ResetIsSound := by
  unfold Obligations.ResetIsSound
  refine ⟨?_, ?_, ⟨by decide, by decide⟩, fun k => ?_, ⟨by decide, fun l => ?_⟩, by decide, rfl⟩
  · unfold MarksCurrent
    decide
  · exact ⟨wf_nil _, wf_nil _, wf_nil _, wf_nil _, wf_nil _, wf_nil _, wf_nil _, wf_nil _, wf_nil _, wf_nil _⟩
  · exact ⟨(nomatch ·), (nomatch ·)⟩
  · cases l <;> decide

end Sys2Proof.Proofs
